-- ==== Sys2Proof/Word.lean ====
section
/-! DEFINITION. The widths of the values the operations of the block move (20_memory R85, R87; 30_encoding R102). -/

namespace Sys2Proof

/-- One byte of a program item: an operation word or an operand byte (30_encoding R102, R106). -/
abbrev Byte := BitVec 8

/-- A value of the millisecond counter, or an interval between two of its values (10_state R35, 42_decoder R204). -/
abbrev Counter := BitVec 16

/-- A packed wallclock word (30_encoding R115). -/
abbrev Packed := BitVec 64

/-- The frame accumulation buffer: position `i` is bit `i` (10_state R43, 30_encoding R118). -/
abbrev Frame := BitVec 59

end Sys2Proof
end

