-- ==== Sys2Proof/Syntax.lean ====
section
/-! DEFINITION. The operations of the block (30_encoding R101), one constructor for each row of spec/opcode_table.json, and the
agents that issue them (00_scope R13). -/

namespace Sys2Proof

/-- A level of the input signal (00_scope R14). -/
inductive Level where
  | low
  | high
  deriving DecidableEq, Repr

/-- The agents that drive the block (00_scope R13). Any number of readers is admitted (`N_READERS`, 00_scope R8). -/
inductive Agent where
  | tickSource
  | edgeSource
  | synchroniser
  | reader (n : Nat)
  | enablePolicy
  | resetInput
  deriving DecidableEq, Repr

/-- The nine operations (30_encoding R101). -/
inductive Instr where
  /-- advance the time base by one millisecond (41_timebase R160) -/
  | tick
  /-- one transition of the input signal to a new level (42_decoder R200) -/
  | edge (level : Level)
  /-- read the millisecond counter (41_timebase R170) -/
  | getms
  /-- read the wallclock (41_timebase R172) -/
  | snap
  /-- read the synchronisation flag (41_timebase R174) -/
  | syncq
  /-- apply the pending handoff; the operand is the packed wallclock word (41_timebase R176, 30_encoding R103) -/
  | handoff (operand : Packed)
  /-- enable the decoder's edge source (43_control R260) -/
  | decen
  /-- mask the decoder's edge source (43_control R262) -/
  | decdis
  /-- put every register in its reset state (70_reset_and_hazards R340) -/
  | reset
  deriving DecidableEq, Repr

end Sys2Proof
end

