-- ==== Sys2Proof/Machine/State.lean ====
section
/-! DEFINITION. The state of the block (10_state R30), the reasons a step can stop, and the state after reset. -/

namespace Sys2Proof.Machine

/-- A wallclock value (10_state R32, 00_scope R12): seven unsigned fields. -/
structure Wallclock where
  year : BitVec 16
  month : BitVec 4
  day : BitVec 6
  hour : BitVec 5
  minute : BitVec 6
  second : BitVec 6
  millisecond : BitVec 10
  deriving DecidableEq, Repr

/-- The fixed epoch 1970-01-01 00:00:00.000 (10_state R34, `EPOCH` of 00_scope R8). -/
def Wallclock.epoch : Wallclock :=
  { year := 1970, month := 1, day := 1, hour := 0, minute := 0, second := 0, millisecond := 0 }

/-- One output of the block: a REFRESH pulse (10_state R46), or the result an operation returns to the agent that issued it
(00_scope R11, 30_encoding R104). -/
inductive Event where
  | refresh
  | ms (reader : Agent) (value : BitVec 16)
  | wallclock (reader : Agent) (value : BitVec 64)
  | synced (reader : Agent) (value : BitVec 1)
  deriving DecidableEq, Repr

/-- One program item as an agent presents it: the agent, and the bytes of one operation (00_scope R7, R13; 30_encoding R106,
R107). -/
structure Item where
  agent : Agent
  bytes : List Byte
  deriving DecidableEq, Repr

/-- The state: the ten registers of 10_state R30, then five fields of the MODEL's own, which hold what the environment presents
and what it observes and are no registers of the block. -/
structure State where
  /-- `WC` (10_state R32) -/
  wc : Wallclock
  /-- `MSC` (10_state R35) -/
  msc : BitVec 16
  /-- `SYNCED` (10_state R36) -/
  synced : Bool
  /-- `LSM` (10_state R37) -/
  lsm : BitVec 6
  /-- `DEC_EN` (10_state R39) -/
  decEn : Bool
  /-- `LVL` (10_state R40) -/
  lvl : Level
  /-- `LEM` (10_state R41) -/
  lem : BitVec 16
  /-- `CNT` (10_state R42) -/
  cnt : BitVec 6
  /-- `F` (10_state R43), position `i` at bit `i` -/
  f : BitVec 59
  /-- `PEND` (10_state R44) -/
  pend : Option Wallclock
  /-- the MODEL's: the operations the agents present, in their interleaving (20_memory R70; log 1) -/
  input : List Item
  /-- the MODEL's: the edges presented while EDGE was not enabled, oldest first (20_memory R74; log 3) -/
  waiting : List Level
  /-- the MODEL's: the environment's choices between a waiting edge and a presented operation (20_memory R70; log 3) -/
  turns : List Bool
  /-- the MODEL's: the agent whose operation the current step is (00_scope R13; log 6) -/
  issuer : Agent
  /-- the MODEL's: the output trace, NEWEST event first (00_scope R11, 60_exceptions R318; log 6) -/
  trace : List Event
  deriving DecidableEq, Repr

/-- Reasons the machine stops with a fault: NONE. "The block raises no exception and takes no trap. No operation fails"
(60_exceptions R300). Nothing raises one; that is safe, since the spec says so of every operation. -/
inductive Fault where
  deriving DecidableEq, Repr

/-- Reasons the model gives a presented item no meaning (30_encoding R112, 60_exceptions R302). -/
inductive Refusal where
  /-- an instruction without a meaning in the model; raised by an arm of exec, of which none is left; safe -/
  | notModelled (mnemonic : String)
  /-- a reserved operation word (30_encoding R112); raised when an item is read; safe: it errs toward unprovable (R112) -/
  | reservedWord (op : Byte)
  /-- an item whose bytes are not exactly one operation (no byte, operand bytes missing, bytes left over); raised when an item
  is read; safe (log 9) -/
  | malformedItem
  /-- an operation from an agent other than the one 30_encoding R101 names for it (R107), a HANDOFF not issued by the
  synchroniser among them (R112); raised when an item is read; safe (log 8) -/
  | notItsAgent (agent : Agent)
  /-- HANDOFF with `PEND = none` (30_encoding R112, 41_timebase R176 `refuse(HandoffWithoutPending)`); raised by HANDOFF's
  meaning; safe: it errs toward unprovable (R112) -/
  | handoffWithoutPending
  deriving DecidableEq, Repr

/-- The machine right after reset: every register as 70_reset_and_hazards R340 gives it (all but the wallclock are the spec's
decision D5, log 11), nothing presented, nothing observed (the model's own fields: DESIGN CHOICE, log 12). -/
def State.reset : State :=
  { wc := Wallclock.epoch
    msc := 0
    synced := false
    lsm := 0
    decEn := true
    lvl := .low
    lem := 0
    cnt := 0
    f := 0
    pend := none
    input := []
    waiting := []
    turns := []
    issuer := .resetInput
    trace := [] }

end Sys2Proof.Machine
end

