-- ==== Sys2Proof/Machine/Operands.lean ====
section
/-! DEFINITION. The packed wallclock word (30_encoding R115, R116), the only operand and result form with fields. -/

namespace Sys2Proof.Machine

/-- `pack(w)`: the seven fields at their widths, the year highest, zero-extended to 64 bits (30_encoding R115, R116). -/
def pack (w : Wallclock) : BitVec 64 :=
  (w.year ++ w.month ++ w.day ++ w.hour ++ w.minute ++ w.second ++ w.millisecond).setWidth 64

/-- `unpack(x)`: each field from its bits; bits 63:53 are ignored (30_encoding R116). -/
def unpack (x : BitVec 64) : Wallclock :=
  { year := x.extractLsb' 37 16
    month := x.extractLsb' 33 4
    day := x.extractLsb' 27 6
    hour := x.extractLsb' 22 5
    minute := x.extractLsb' 16 6
    second := x.extractLsb' 10 6
    millisecond := x.extractLsb' 0 10 }

/-- The 1-bit result of SYNCQ (30_encoding R104). -/
def syncedBit (b : Bool) : BitVec 1 := BitVec.ofBool b

end Sys2Proof.Machine
end

