-- ==== Sys2Proof/Machine/Params.lean ====
section
/-! DEFINITION. The fixed parameters of 00_scope R8, each at the value the rule gives it (R9: no operation changes one). The one
OPEN parameter, `HANDOFF_MAX_TICKS`, bounds nothing in the model (log 13); claims take it as a premise (Sys2Proof/Safety.lean). -/

namespace Sys2Proof.Machine

/-- `FRAME_BITS` -/
abbrev frameBits : Nat := 59

/-- `STALE_THRESHOLD_MIN` -/
abbrev staleThresholdMin : Nat := 5

/-- `MARKER_MIN_MS`, exclusive -/
abbrev markerMinMs : Nat := 1500

/-- `ONE_WINDOW_MS`, an open interval -/
abbrev oneWindowMs : Nat × Nat := (160, 240)

/-- `ZERO_WINDOW_MS`, an open interval (its openness is the spec's decision D7, log 16) -/
abbrev zeroWindowMs : Nat × Nat := (60, 140)

/-- `CNT_LIMIT`: a bit count above it ignores LOW edges -/
abbrev cntLimit : Nat := 60

/-- `REFRESH_AT_MS` -/
abbrev refreshAtMs : List Nat := [0, 500]

/-- `YEAR_OFFSET` -/
abbrev yearOffset : Nat := 2000

end Sys2Proof.Machine
end

