-- ==== Sys2Proof/Machine/Ops.lean ====
section
/-! DEFINITION. The named operations over the registers: every write of a register goes through one of them.

There is no memory (20_memory R84), so there is no memory operation. There is no exception and no return from one (60_exceptions
R300, R308, R309: "No step saves state, changes a mode or mask, or redirects control"), so the shared operation that would take an
exception has nothing to do and is not there: no operation of the block can call it. -/

namespace Sys2Proof.Machine

/-- Record one event in the output trace (00_scope R11). -/
def State.record (e : Event) (s : State) : State := { s with trace := e :: s.trace }

/-- `WC <- w`, the whole value at once (10_state R34). -/
def State.setWc (w : Wallclock) (s : State) : State := { s with wc := w }

/-- `MSC <- v` (10_state R35). -/
def State.setMsc (v : BitVec 16) (s : State) : State := { s with msc := v }

/-- `SYNCED <- b` (10_state R36). -/
def State.setSynced (b : Bool) (s : State) : State := { s with synced := b }

/-- `LSM <- m` (10_state R37). -/
def State.setLsm (m : BitVec 6) (s : State) : State := { s with lsm := m }

/-- `DEC_EN <- b` (10_state R39). -/
def State.setDecEn (b : Bool) (s : State) : State := { s with decEn := b }

/-- `PEND <- p` (10_state R44). -/
def State.setPend (p : Option Wallclock) (s : State) : State := { s with pend := p }

/-- `LEM <- MSC`, `LVL <- L`: every edge that passes the enable and the debounce (42_decoder R203, R204). -/
def State.recordEdge (l : Level) (s : State) : State := { s with lem := s.msc, lvl := l }

/-- `F <- 0` (all 59 bits), `CNT <- 0` (42_decoder R213). -/
def State.clearFrame (s : State) : State := { s with f := 0, cnt := 0 }

/-- Position `i` of the frame set to `b`, every other position kept (42_decoder R211). -/
def setFrameBit (f : BitVec 59) (i : Nat) (b : Bool) : BitVec 59 :=
  if b then f ||| BitVec.twoPow 59 i else f &&& ~~~ BitVec.twoPow 59 i

/-- The frame after a bit is accepted at count `cnt`: stored where `CNT ≤ 58`, and only there (42_decoder R211; that later bits
are not stored is the spec's decision D8, log 17). -/
def storeBit (f : BitVec 59) (cnt : BitVec 6) (b : Bool) : BitVec 59 :=
  if cnt.toNat < frameBits then setFrameBit f cnt.toNat b else f

/-- Append one accepted bit, and `CNT <- CNT + 1` in every case (42_decoder R211). -/
def State.appendBit (b : Bool) (s : State) : State := { s with f := storeBit s.f s.cnt b, cnt := s.cnt + 1 }

/-- The millisecond field `m` is one at which a TICK emits REFRESH: 0 or 500 (41_timebase R165). -/
def refreshInstant (m : BitVec 10) : Bool := refreshAtMs.contains m.toNat

/-- REFRESH when the millisecond field `m` that a TICK leaves is 0 or 500 (41_timebase R165). -/
def State.emitRefreshAt (m : BitVec 10) (s : State) : State := if refreshInstant m then s.record .refresh else s

/-- A presented EDGE is taken at once: no handoff is pending (20_memory R74), and either no older edge waits before it (20_memory
R72) or the decoder is masked, where the edge is discarded as it arrives (60_exceptions R305, 42_decoder R201). -/
def State.edgeEnabled (s : State) : Bool := s.pend.isNone && (s.waiting.isEmpty || !s.decEn)

/-- An edge presented while EDGE is not enabled waits; it is not lost (20_memory R74). -/
def State.waitEdge (l : Level) (s : State) : State := { s with waiting := s.waiting ++ [l] }

/-- The output level `synced_o`, equal to `SYNCED` at every instant (10_state R46, 30_encoding R131). -/
def State.syncedOut (s : State) : Bool := s.synced

end Sys2Proof.Machine
end

