-- ==== Sys2Proof/Machine/Control.lean ====
section
/-! DEFINITION. The decoder enable control and reset: DECEN, DECDIS (43_control), RESET (70_reset_and_hazards R340). -/

namespace Sys2Proof.Machine

/-- DECEN (43_control R260): `DEC_EN <- 1`. -/
def execDecen (s : State) : Host.Outcome State Fault Refusal := .next (s.setDecEn true)

/-- DECDIS (43_control R262): `DEC_EN <- 0`. -/
def execDecdis (s : State) : Host.Outcome State Fault Refusal := .next (s.setDecEn false)

/-- Every register of 10_state R30 in its reset state (70_reset_and_hazards R340). What the environment presents and has observed
(the model's own fields) is no register and stays (DESIGN CHOICE, log 5). -/
def State.resetRegisters (s : State) : State :=
  { State.reset with
    input := s.input
    waiting := s.waiting
    turns := s.turns
    issuer := s.issuer
    trace := s.trace }

/-- RESET (70_reset_and_hazards R340): always enabled (20_memory R74), no REFRESH. -/
def execReset (s : State) : Host.Outcome State Fault Refusal := .next s.resetRegisters

end Sys2Proof.Machine
end

