-- ==== Sys2Proof/Machine/Decoder.lean ====
section
/-! DEFINITION. The Signal Decoder: EDGE and its parts (42_decoder). -/

namespace Sys2Proof.Machine

/-- The classifier's output (30_encoding R122): `none` is the absence of a symbol. -/
inductive Symbol where
  | none
  | zero
  | one
  | marker
  deriving DecidableEq, Repr

/-- The symbol codes (30_encoding R122). -/
def symbolCode : Symbol → BitVec 2
  | .none => 0
  | .zero => 1
  | .one => 2
  | .marker => 3

/-- `iv` lies strictly between the bounds of a window (30_encoding R121). -/
def inWindow (window : Nat × Nat) (iv : BitVec 16) : Bool := decide (window.1 < iv.toNat) && decide (iv.toNat < window.2)

/-- `CLASSIFY(L, iv)` (42_decoder R205, 30_encoding R121). -/
def classify (l : Level) (iv : BitVec 16) : Symbol :=
  match l with
  | .high => if markerMinMs < iv.toNat then .marker else .none
  | .low => if inWindow oneWindowMs iv then .one else if inWindow zeroWindowMs iv then .zero else .none

/-- The bit-symbol mapper (30_encoding R122, 42_decoder R211). -/
def symbolBit : Symbol → Option Bool
  | .none => Option.none
  | .zero => some false
  | .one => some true
  | .marker => Option.none

/-- The exclusive or of `n` frame positions from `lo` on. -/
def frameParity (f : BitVec 59) (lo : Nat) : Nat → Bool
  | 0 => false
  | n + 1 => f.getLsbD lo ^^ frameParity f (lo + 1) n

/-- `VALID(F)`: the six checks (42_decoder R220). -/
def frameValid (f : BitVec 59) : Bool :=
  !f.getLsbD 0                            -- V1
    && (f.getLsbD 17 != f.getLsbD 18)     -- V2
    && f.getLsbD 20                       -- V3
    && !frameParity f 21 8                -- V4, positions 21 to 28
    && !frameParity f 29 7                -- V5, positions 29 to 35
    && !frameParity f 36 23               -- V6, positions 36 to 58

/-- The sum of weighted frame bits: from position `lo` on, one weight a position (42_decoder R230). -/
def frameSum (f : BitVec 59) (lo : Nat) : List Nat → Nat
  | [] => 0
  | w :: ws => (if f.getLsbD lo then w else 0) + frameSum f (lo + 1) ws

/-- The five numbers of `DECODE(F)` (42_decoder R230). -/
structure Decoded where
  minute : Nat
  hour : Nat
  day : Nat
  month : Nat
  year2 : Nat
  deriving DecidableEq, Repr

/-- `DECODE(F)`, the weights of 30_encoding R120 (42_decoder R230). The sums are not checked as decimal digits (R231). -/
def frameDecode (f : BitVec 59) : Decoded :=
  { minute := frameSum f 21 [1, 2, 4, 8, 10, 20, 40]
    hour := frameSum f 29 [1, 2, 4, 8, 10, 20]
    day := frameSum f 36 [1, 2, 4, 8, 10, 20]
    month := frameSum f 45 [1, 2, 4, 8, 10]
    year2 := frameSum f 50 [1, 2, 4, 8, 10, 20, 40, 80] }

/-- `PLAUSIBLE` (42_decoder R233): neither the day nor a zero month is tested (the spec's decision D17, log 17). -/
def plausible (d : Decoded) : Bool :=
  decide (d.minute ≤ 59) && decide (d.hour ≤ 23) && decide (d.month ≤ 12) && decide (d.year2 ≤ 99)

/-- `SYNCVAL` (42_decoder R234). -/
def syncVal (d : Decoded) : Wallclock :=
  { year := BitVec.ofNat 16 (yearOffset + d.year2)
    month := BitVec.ofNat 4 d.month
    day := BitVec.ofNat 6 d.day
    hour := BitVec.ofNat 5 d.hour
    minute := BitVec.ofNat 6 d.minute
    second := 0
    millisecond := 0 }

/-- The frame is accepted at a marker: exactly 59 bits, valid, plausible (42_decoder R213). -/
def frameAccepted (cnt : BitVec 6) (f : BitVec 59) : Bool :=
  decide (cnt.toNat = frameBits) && frameValid f && plausible (frameDecode f)

/-- A minute marker: the handoff where the frame is accepted, then the frame is cleared (42_decoder R213, R234). -/
def State.markerEdge (s : State) : State :=
  if frameAccepted s.cnt s.f then (s.setPend (some (syncVal (frameDecode s.f)))).clearFrame else s.clearFrame

/-- A handled HIGH edge with interval `iv` (42_decoder R212, R213). -/
def State.highEdge (iv : BitVec 16) (s : State) : State :=
  if classify .high iv = .marker then s.markerEdge else s

/-- A handled LOW edge with interval `iv` (42_decoder R209 to R211). -/
def State.lowEdge (iv : BitVec 16) (s : State) : State :=
  if s.cnt.toNat > cntLimit then s
  else
    match symbolBit (classify .low iv) with
    | some b => s.appendBit b
    | Option.none => s

/-- The interval `(MSC - LEM) mod 2^16` (42_decoder R204). -/
def State.interval (s : State) : BitVec 16 := s.msc - s.lem

/-- One EDGE step on the registers (42_decoder R200): disabled (R201), debounced (R202), or handled. -/
def State.handleEdge (l : Level) (s : State) : State :=
  if s.decEn = false then s
  else if l = s.lvl then s
  else
    match l with
    | .high => (s.recordEdge .high).highEdge s.interval
    | .low => (s.recordEdge .low).lowEdge s.interval

/-- EDGE (42_decoder R200): the step where it is taken at once, else the edge waits (20_memory R74). An edge that arrives masked with
no handoff pending is discarded even behind older edges (60_exceptions R305); with a handoff pending it waits (log 4). -/
def execEdge (l : Level) (s : State) : Host.Outcome State Fault Refusal :=
  if s.edgeEnabled then .next (s.handleEdge l) else .next (s.waitEdge l)

end Sys2Proof.Machine
end

