-- ==== Sys2Proof/Machine/Calendar.lean ====
section
/-! DEFINITION. Calendar arithmetic (40_calendar R140 to R144): no state, no operation of its own. -/

namespace Sys2Proof.Machine

/-- `LEAP(y)` (40_calendar R141). -/
def leap (y : Nat) : Bool := (y % 4 == 0 && y % 100 != 0) || y % 400 == 0

/-- `DIM_LUT` (40_calendar R142). Months 1 and 3 to 12 are the spec's general knowledge (G2) and months 0, 13, 14, 15 its
decision D15 (log 15). -/
def dimLut : Nat → Nat
  | 0 => 31
  | 1 => 31
  | 2 => 28
  | 3 => 31
  | 4 => 30
  | 5 => 31
  | 6 => 30
  | 7 => 31
  | 8 => 31
  | 9 => 30
  | 10 => 31
  | 11 => 30
  | 12 => 31
  | _ => 31

/-- `DIM(m, y)`, days in month (40_calendar R143). -/
def dim (m : BitVec 4) (y : BitVec 16) : Nat :=
  dimLut m.toNat + (if m = 2 ∧ leap y.toNat then 1 else 0)

end Sys2Proof.Machine
end

