-- ==== Sys2Proof/Config.lean ====
section
/-! DEFINITION. What the spec leaves open. The fixed parameters of 00_scope R8 are in Sys2Proof/Machine/Params.lean. -/

namespace Sys2Proof

/-- The value of `(60 + mi - LSM) mod 60` (41_timebase R164) where `60 + mi - LSM` is no natural number, for the minute `mi` and
the last sync minute `lsm`. The spec states none: "`LSM ≤ 59` on every reachable state, so `60 + mi - LSM ≥ 1`".
A FREE VALUE: nothing constrains it. DESIGN CHOICE (log 10), safe. -/
opaque Config.staleDifference (mi lsm : Nat) : Nat

end Sys2Proof
end

