-- ==== Sys2Proof/Machine/Flags.lean ====
section
/-! DEFINITION. The one status flag, `SYNCED` (10_state R38), and its clearing by the staleness check (41_timebase R164). -/

namespace Sys2Proof.Machine

/-- `(60 + mi - LSM) mod 60` (41_timebase R164). Where the difference is no natural number, which is on no reachable state, the
value is FREE (DESIGN CHOICE, log 10). -/
def staleDifference (mi lsm : BitVec 6) : Nat :=
  if lsm.toNat ≤ 60 + mi.toNat then (60 + mi.toNat - lsm.toNat) % 60
  else Config.staleDifference mi.toNat lsm.toNat

/-- The staleness test of a minute rollover into minute `mi` (41_timebase R164). -/
def isStale (mi lsm : BitVec 6) : Bool := decide (staleThresholdMin < staleDifference mi lsm)

/-- `SYNCED` after a TICK: cleared at a minute rollover into `mi` when it was 1 and the sync is stale (41_timebase R164), never
set (R160). -/
def syncedAfterTick (synced minuteRoll : Bool) (mi lsm : BitVec 6) : Bool :=
  synced && !(minuteRoll && isStale mi lsm)

end Sys2Proof.Machine
end

