-- ==== Sys2Proof/Machine/TimeBase.lean ====
section
/-! DEFINITION. The Time-Base Engine's operations: TICK, GETMS, SNAP, SYNCQ, HANDOFF (41_timebase). -/

namespace Sys2Proof.Machine

/-- The year carry: plus one modulo 65536 (41_timebase R163). -/
def Wallclock.nextYear (w : Wallclock) : Wallclock := { w with year := w.year + 1 }

/-- The month carry: 12 goes to 1 with a year carry (41_timebase R163). -/
def Wallclock.nextMonth (w : Wallclock) : Wallclock :=
  if w.month.toNat + 1 > 12 then Wallclock.nextYear { w with month := 1 } else { w with month := w.month + 1 }

/-- The day carry: a day past the month's length goes to 1 with a month carry (41_timebase R163). -/
def Wallclock.nextDay (w : Wallclock) : Wallclock :=
  if w.day.toNat + 1 > dim w.month w.year then Wallclock.nextMonth { w with day := 1 } else { w with day := w.day + 1 }

/-- The hour carry: at 24 the hour restarts at 0 with a day carry (41_timebase R162). -/
def Wallclock.nextHour (w : Wallclock) : Wallclock :=
  if w.hour.toNat + 1 ≥ 24 then Wallclock.nextDay { w with hour := 0 } else { w with hour := w.hour + 1 }

/-- The minute carry: at 60 the minute restarts at 0 with an hour carry (41_timebase R162). -/
def Wallclock.nextMinute (w : Wallclock) : Wallclock :=
  if w.minute.toNat + 1 ≥ 60 then Wallclock.nextHour { w with minute := 0 } else { w with minute := w.minute + 1 }

/-- The second carry: at 60 the second restarts at 0 with a minute carry (41_timebase R162). -/
def Wallclock.nextSecond (w : Wallclock) : Wallclock :=
  if w.second.toNat + 1 ≥ 60 then Wallclock.nextMinute { w with second := 0 } else { w with second := w.second + 1 }

/-- One millisecond later: at 1000 the millisecond restarts at 0 with a second carry (41_timebase R160, R162). -/
def Wallclock.nextMilli (w : Wallclock) : Wallclock :=
  if w.millisecond.toNat + 1 ≥ 1000 then Wallclock.nextSecond { w with millisecond := 0 }
  else { w with millisecond := w.millisecond + 1 }

/-- The TICK from `w` is a minute rollover: the second carries into the minute (41_timebase R164). -/
def Wallclock.minuteRoll (w : Wallclock) : Bool :=
  decide (w.millisecond.toNat + 1 ≥ 1000) && decide (w.second.toNat + 1 ≥ 60)

/-- TICK on the registers (41_timebase R160): every read is of the values at the start of the step. -/
def State.tick (s : State) : State :=
  (((s.setMsc (s.msc + 1)).setWc s.wc.nextMilli).setSynced
    (syncedAfterTick s.synced s.wc.minuteRoll s.wc.nextMilli.minute s.lsm)).emitRefreshAt s.wc.nextMilli.millisecond

/-- TICK (41_timebase R160): always enabled (20_memory R74). -/
def execTick (s : State) : Host.Outcome State Fault Refusal := .next s.tick

/-- GETMS (41_timebase R170): `return MSC`. -/
def execGetms (s : State) : Host.Outcome State Fault Refusal := .next (s.record (.ms s.issuer s.msc))

/-- SNAP (41_timebase R172): `return pack(WC)`. -/
def execSnap (s : State) : Host.Outcome State Fault Refusal := .next (s.record (.wallclock s.issuer (pack s.wc)))

/-- SYNCQ (41_timebase R174): `return SYNCED`. -/
def execSyncq (s : State) : Host.Outcome State Fault Refusal := .next (s.record (.synced s.issuer (syncedBit s.synced)))

/-- The handoff of `w` to the engine (41_timebase R176): the bulk replace, one step (20_memory R82). -/
def State.applyHandoff (w : Wallclock) (s : State) : State :=
  (((s.setWc w).setSynced true).setLsm w.minute).setPend none

/-- HANDOFF (41_timebase R176). The value is the one in `PEND`, as the rule's pseudocode takes it; the operand, "equal to
pack(w)", is not read (DEDUCED, log 7). -/
def execHandoff (_operand : Packed) (s : State) : Host.Outcome State Fault Refusal :=
  match s.pend with
  | none => .refused .handoffWithoutPending
  | some w => .next (s.applyHandoff w)

end Sys2Proof.Machine
end

