-- ==== Sys2Proof/Machine/Dispatch.lean ====
section
/-! DEFINITION. The meaning of every operation, one arm per constructor. -/

namespace Sys2Proof.Machine

def exec (i : Instr) (s : State) : Host.Outcome State Fault Refusal :=
  match i with
  | .tick => Sys2Proof.Machine.execTick s
  | .edge l => Sys2Proof.Machine.execEdge l s
  | .getms => Sys2Proof.Machine.execGetms s
  | .snap => Sys2Proof.Machine.execSnap s
  | .syncq => Sys2Proof.Machine.execSyncq s
  | .handoff x => Sys2Proof.Machine.execHandoff x s
  | .decen => Sys2Proof.Machine.execDecen s
  | .decdis => Sys2Proof.Machine.execDecdis s
  | .reset => Sys2Proof.Machine.execReset s

end Sys2Proof.Machine
end

