-- ==== Sys2Proof/WellFormed.lean ====
section
/-! DEFINITION. Which operation terms are well formed. -/

namespace Sys2Proof

/-- Bits 63:53 of a packed wallclock word, reserved and zero (30_encoding R115). -/
def reservedBits (x : Packed) : BitVec 11 := x.extractLsb' 53 11

/-- An operation is well formed when its operand is one the encoding gives it: HANDOFF's packed wallclock word has its reserved
bits 63:53 zero (30_encoding R115). No other operation has a check: an operation word has no other operand than a level
(30_encoding R103). -/
def Instr.wellFormed : Instr → Bool
  | .tick => true
  | .edge _ => true
  | .getms => true
  | .snap => true
  | .syncq => true
  | .handoff x => reservedBits x == 0
  | .decen => true
  | .decdis => true
  | .reset => true

end Sys2Proof
end

