-- ==== Sys2Proof/Decode.lean ====
section
/-! DEFINITION. Reading an operation from bytes (30_encoding R102 to R106), total, and writing one. -/

namespace Sys2Proof

/-- Why bytes spell no operation. -/
inductive DecodeError where
  /-- no byte at all -/
  | noByte
  /-- the first byte is one of the 246 reserved words (30_encoding R105, R108) -/
  | reservedWord (op : Byte)
  /-- HANDOFF's word without its 8 operand bytes (30_encoding R103, R106) -/
  | operandMissing
  deriving DecidableEq, Repr

/-- `op[3:0]`, the operation code (30_encoding R102). -/
def opcOf (op : Byte) : BitVec 4 := op.extractLsb' 0 4

/-- `op[4]`, the level of EDGE (30_encoding R102). -/
def levelBitOf (op : Byte) : Bool := op.getLsbD 4

/-- `op[7:5]`, which must be 000 (30_encoding R102). -/
def rsvOf (op : Byte) : BitVec 3 := op.extractLsb' 5 3

/-- Levels as they are encoded: LOW is 0, HIGH is 1 (00_scope R14). -/
def Level.ofBit (b : Bool) : Level := if b then .high else .low

/-- Levels as they are encoded: LOW is 0, HIGH is 1 (00_scope R14). -/
def Level.toBit : Level → Bool
  | .low => false
  | .high => true

/-- A 64-bit word from its 8 bytes, byte 0 (the least significant) first (20_memory R85, 30_encoding R103). -/
def packedOfBytes (b0 b1 b2 b3 b4 b5 b6 b7 : Byte) : Packed :=
  b7 ++ b6 ++ b5 ++ b4 ++ b3 ++ b2 ++ b1 ++ b0

/-- Byte `k` of a 64-bit word, byte 0 the least significant (20_memory R85). -/
def byteOfPacked (x : Packed) (k : Nat) : Byte := x.extractLsb' (8 * k) 8

/-- The HANDOFF operand that follows the word 0x05 (30_encoding R103). -/
def decodeOperand : List Byte → Except DecodeError (Instr × List Byte)
  | b0 :: b1 :: b2 :: b3 :: b4 :: b5 :: b6 :: b7 :: rest =>
    .ok (.handoff (packedOfBytes b0 b1 b2 b3 b4 b5 b6 b7), rest)
  | _ => .error .operandMissing

/-- The operation of a code other than EDGE's, with `rest` the bytes after its word (30_encoding R101, R105). -/
def decodeOpc (op : Byte) (rest : List Byte) : Except DecodeError (Instr × List Byte) :=
  match (opcOf op).toNat with
  | 0 => .ok (.tick, rest)
  | 2 => .ok (.getms, rest)
  | 3 => .ok (.snap, rest)
  | 4 => .ok (.syncq, rest)
  | 5 => decodeOperand rest
  | 6 => .ok (.decen, rest)
  | 7 => .ok (.decdis, rest)
  | 8 => .ok (.reset, rest)
  | _ => .error (.reservedWord op)

/-- One operation from the front of the bytes, and the bytes after it, in the order of tests of 30_encoding R105. -/
def decode : List Byte → Except DecodeError (Instr × List Byte)
  | [] => .error .noByte
  | op :: rest =>
    if rsvOf op ≠ 0 then .error (.reservedWord op)
    else if opcOf op = 1 then .ok (.edge (Level.ofBit (levelBitOf op)), rest)
    else if levelBitOf op then .error (.reservedWord op)
    else decodeOpc op rest

/-- How many bytes the program item that begins with this word has: 9 for HANDOFF, else 1 (30_encoding R106). -/
def itemLength (op : Byte) : Nat := if op = 0x05 then 9 else 1

/-- The operation word `{RSV, L, OPC}` with RSV = 000 (30_encoding R102). -/
def opWord (opc : BitVec 4) (l : Bool) : Byte := (0 : BitVec 3) ++ BitVec.ofBool l ++ opc

/-- The bytes of an operation: its word (30_encoding R101), and HANDOFF's operand, least significant byte first (R103). -/
def encode : Instr → List Byte
  | .tick => [opWord 0x0 false]
  | .edge l => [opWord 0x1 l.toBit]
  | .getms => [opWord 0x2 false]
  | .snap => [opWord 0x3 false]
  | .syncq => [opWord 0x4 false]
  | .handoff x =>
    [opWord 0x5 false, byteOfPacked x 0, byteOfPacked x 1, byteOfPacked x 2, byteOfPacked x 3,
      byteOfPacked x 4, byteOfPacked x 5, byteOfPacked x 6, byteOfPacked x 7]
  | .decen => [opWord 0x6 false]
  | .decdis => [opWord 0x7 false]
  | .reset => [opWord 0x8 false]

/-- Byte `k` of an instruction whose bits are `w`, bit 0 the least significant bit of the first byte. -/
def tableByte (nbits w k : Nat) : Byte := BitVec.ofNat 8 ((w % 2 ^ nbits) / 2 ^ (8 * k))

/-- The bytes of an instruction whose bits are `w`, the first at the front, up to the longest item (9 bytes, 30_encoding R106);
every bit above `nbits` is 0. -/
def tableBytes (nbits w : Nat) : List Byte :=
  [tableByte nbits w 0, tableByte nbits w 1, tableByte nbits w 2, tableByte nbits w 3, tableByte nbits w 4,
    tableByte nbits w 5, tableByte nbits w 6, tableByte nbits w 7, tableByte nbits w 8]

/-- The bytes of exactly one program item (30_encoding R106) from an instruction whose bits are `w`. -/
def tableItem (nbits w : Nat) : List Byte := (tableBytes nbits w).take (itemLength (tableByte nbits w 0))

/-- The instruction the decoder reads from an instruction whose bits are `w`, `none` where it refuses. -/
def decodeTableWord (nbits w : Nat) : Option Instr :=
  match decode (tableItem nbits w) with
  | .ok (i, _) => some i
  | .error _ => none

/-- The mnemonic of an operation (30_encoding R101, R113). -/
def Instr.mnemonic : Instr → String
  | .tick => "TICK"
  | .edge _ => "EDGE"
  | .getms => "GETMS"
  | .snap => "SNAP"
  | .syncq => "SYNCQ"
  | .handoff _ => "HANDOFF"
  | .decen => "DECEN"
  | .decdis => "DECDIS"
  | .reset => "RESET"

end Sys2Proof
end

