-- ==== Sys2Proof/Machine/Issue.lean ====
section
/-! DEFINITION. Which operation the next step is (20_memory R70 to R74), and reading a presented item (30_encoding R105 to R107,
R112). The environment's interleaving is plain data: `input` and `turns` (log 1, log 3). -/

namespace Sys2Proof.Machine

/-- Any reader, of whatever number (`N_READERS`, 00_scope R8). -/
def isReader : Agent → Bool
  | .reader _ => true
  | _ => false

/-- The agent may issue the operation (30_encoding R101, R107, 10_state R48). -/
def mayIssue (a : Agent) (i : Instr) : Bool :=
  match i with
  | .tick => a == .tickSource
  | .edge _ => a == .edgeSource
  | .getms => isReader a
  | .snap => isReader a
  | .syncq => isReader a
  | .handoff _ => a == .synchroniser
  | .decen => a == .enablePolicy
  | .decdis => a == .enablePolicy
  | .reset => a == .resetInput

/-- The agent 30_encoding R101 names for an operation; for a read, reader 0. -/
def agentFor : Instr → Agent
  | .tick => .tickSource
  | .edge _ => .edgeSource
  | .getms => .reader 0
  | .snap => .reader 0
  | .syncq => .reader 0
  | .handoff _ => .synchroniser
  | .decen => .enablePolicy
  | .decdis => .enablePolicy
  | .reset => .resetInput

/-- The operation a presented item spells, or why the model gives the item no meaning (30_encoding R107, R112). -/
def readItem (q : Item) : Except Refusal Instr :=
  match decode q.bytes with
  | .error (.reservedWord op) => .error (.reservedWord op)
  | .error .noByte => .error .malformedItem
  | .error .operandMissing => .error .malformedItem
  | .ok (_, _ :: _) => .error .malformedItem
  | .ok (i, []) => if mayIssue q.agent i then .ok i else .error (.notItsAgent q.agent)

/-- What the next step is. -/
inductive Turn where
  /-- nothing is presented and no waiting edge is enabled: no operation is taken -/
  | idle
  /-- the oldest waiting edge is handled, from the state given -/
  | waitingEdge (l : Level) (s : State)
  /-- the first presented item is read and run, from the state given -/
  | presented (q : Item) (s : State)
  deriving DecidableEq, Repr

/-- The presented item goes next, if there is one. -/
def State.presentedTurn (s : State) : Turn :=
  match s.input with
  | [] => .idle
  | q :: rest => .presented q { s with input := rest, issuer := q.agent }

/-- The choice of the next step. A waiting edge is taken once it is enabled, unless the environment's next choice in `turns` lets
a presented operation go before it (log 3). -/
def State.nextTurn (s : State) : Turn :=
  match s.waiting, s.pend with
  | l :: ls, none =>
    match s.input, s.turns with
    | [], _ => .waitingEdge l { s with waiting := ls, issuer := .edgeSource }
    | _ :: _, [] => .waitingEdge l { s with waiting := ls, issuer := .edgeSource }
    | _ :: _, false :: ts => .waitingEdge l { s with waiting := ls, turns := ts, issuer := .edgeSource }
    | q :: rest, true :: ts => .presented q { s with input := rest, turns := ts, issuer := q.agent }
  | _, _ => s.presentedTurn

/-- The item of one operation whose bits are `w`, issued by the agent 30_encoding R101 names for it. -/
def tableIssue (nbits w : Nat) : Item :=
  { agent := match decodeTableWord nbits w with
      | some i => agentFor i
      | none => .resetInput
    bytes := tableItem nbits w }

/-- Present an item before all others, so that the very next step reads it: where the environment has a choice, it lets the item
go first. -/
def State.present (q : Item) (s : State) : State :=
  { s with
    input := q :: s.input
    turns := if !s.waiting.isEmpty && s.pend.isNone then true :: s.turns else s.turns }

end Sys2Proof.Machine
end

