-- ==== Sys2Proof/Machine/Step.lean ====
section
/-! DEFINITION. One step of the machine: one operation of one agent (20_memory R70, R71). -/

namespace Sys2Proof.Machine

/-- One step: nothing where nothing is presented (log 2), a waiting edge that has become enabled, or the operation the first
presented item spells. -/
def step (s : State) : Host.Outcome State Fault Refusal :=
  match s.nextTurn with
  | .idle => .next s
  | .waitingEdge l t => .next (t.handleEdge l)
  | .presented q t =>
    match readItem q with
    | .error r => .refused r
    | .ok i => exec i t

/-- The instruction whose bits are `w` presented where `step` reads its next operation (log 1). -/
def State.withFetchWord (s : State) (nbits w : Nat) : State := s.present (tableIssue nbits w)

end Sys2Proof.Machine
end

