-- ==== Sys2Proof/Machine/Program.lean ====
section
/-! DEFINITION. Programs as the spec writes them: bytes (30_encoding R100, R106), assembler spelling (R113) and pseudo-operations
(R114). No meaning of an operation depends on this file. -/

namespace Sys2Proof.Machine

/-- The items of a program given as bytes (30_encoding R106), each from the agent 30_encoding R101 names for its operation. `fuel`
bounds the number of items. -/
def splitItems : Nat → List Byte → List Item
  | 0, _ => []
  | _ + 1, [] => []
  | fuel + 1, op :: rest =>
    let bytes := (op :: rest).take (itemLength op)
    let agent := match decode bytes with
      | .ok (i, _) => agentFor i
      | .error _ => .resetInput
    { agent := agent, bytes := bytes } :: splitItems fuel ((op :: rest).drop (itemLength op))

/-- A program given as bytes, presented after all that is presented already. -/
def State.load (program : List Byte) (s : State) : State :=
  { s with input := s.input ++ splitItems program.length program }

/-- `TICKS n` (30_encoding R114). -/
def ticksOps (n : Nat) : List Instr := List.replicate n .tick

/-- The pulse width `w` of a signal bit: 200 for 1, 100 for 0 (30_encoding R114). -/
def pulseMs (b : Bool) : Nat := if b then 200 else 100

/-- `SECOND b` (30_encoding R114). -/
def secondOps (b : Bool) : List Instr :=
  ticksOps (pulseMs b) ++ .edge .low :: ticksOps (1000 - pulseMs b) ++ [.edge .high]

/-- `LASTSECOND b` (30_encoding R114). -/
def lastSecondOps (b : Bool) : List Instr :=
  ticksOps (pulseMs b) ++ .edge .low :: ticksOps (2000 - pulseMs b) ++ [.edge .high]

/-- `FRAME f`, position 0 first (30_encoding R114). -/
def frameOps (f : BitVec 59) : List Instr :=
  (List.range 58).flatMap (fun i => secondOps (f.getLsbD i)) ++ lastSecondOps (f.getLsbD 58)

/-- A wallclock value as it is written: year first, between braces (00_scope R12, 30_encoding R113). -/
def asmWallclock (w : Wallclock) : String :=
  (Char.ofNat 123).toString
    ++ ", ".intercalate
      [toString w.year.toNat, toString w.month.toNat, toString w.day.toNat, toString w.hour.toNat,
        toString w.minute.toNat, toString w.second.toNat, toString w.millisecond.toNat]
    ++ (Char.ofNat 125).toString

/-- The assembler spelling of an operation (30_encoding R113). -/
def asmInstr : Instr → String
  | .edge .low => "EDGE LOW"
  | .edge .high => "EDGE HIGH"
  | .handoff x => "HANDOFF " ++ asmWallclock (unpack x)
  | .tick => "TICK"
  | .getms => "GETMS"
  | .snap => "SNAP"
  | .syncq => "SYNCQ"
  | .decen => "DECEN"
  | .decdis => "DECDIS"
  | .reset => "RESET"

end Sys2Proof.Machine
end

