-- ==== Sys2Proof/Machine/Realisation.lean ====
section
/-! DEFINITION. The two-clock reference realisation (20_memory R89 to R92, 30_encoding R130, R131, 70_reset_and_hazards R341), a
SECOND machine beside the block's own: `exec` and `step` do not use it. Its registers are no part of State, since 10_state R30 and
R31 close State. What R89 to R92 and R130 leave open here is listed in log 20. -/

namespace Sys2Proof.Machine

/-- The reflected Gray code of a counter value (20_memory R90). -/
def grayOf (v : BitVec 16) : BitVec 16 := v ^^^ (v >>> 1)

/-- The counter value of a reflected Gray code: bit `i` is the exclusive or of the code's bits from `i` up (20_memory R90). -/
def ungray (g : BitVec 16) : BitVec 16 :=
  let a := g ^^^ (g >>> 1)
  let b := a ^^^ (a >>> 2)
  let c := b ^^^ (b >>> 4)
  c ^^^ (c >>> 8)

/-- The registers of the realisation: the block's registers, with `PEND` held as the holding register and its handshake, and the
registers of the crossings. -/
structure Chip where
  /-- engine domain: `WC`, `MSC`, `SYNCED`, `LSM` -/
  wc : Wallclock
  msc : BitVec 16
  synced : Bool
  lsm : BitVec 6
  /-- the published Gray copy of `MSC` (20_memory R90) -/
  mscGray : BitVec 16
  /-- the two-stage synchroniser of the request, and the acknowledge bit (R91) -/
  reqSync1 : Bool
  reqSync2 : Bool
  ack : Bool
  /-- the engine domain has left reset (70_reset_and_hazards R341) -/
  engRun : Bool
  /-- decoder domain: `DEC_EN`, `LVL`, `LEM`, `CNT`, `F` -/
  decEn : Bool
  lvl : Level
  lem : BitVec 16
  cnt : BitVec 6
  f : BitVec 59
  /-- the 53-bit holding register and the request bit (R91) -/
  hold : Wallclock
  req : Bool
  /-- the two-stage synchronisers of the acknowledge (R91) and of the Gray counter (R90) -/
  ackSync1 : Bool
  ackSync2 : Bool
  graySync1 : BitVec 16
  graySync2 : BitVec 16
  /-- the synchronised signal input and its previous value (30_encoding R130) -/
  sigSync1 : Level
  sigSync2 : Level
  sigPrev : Level
  /-- edges that wait for the acknowledge, oldest first (R91 with R74) -/
  edges : List Level
  /-- the decoder domain has left reset (70_reset_and_hazards R341) -/
  decRun : Bool
  deriving DecidableEq, Repr

/-- `rst_n` low: both domains in the state of 70_reset_and_hazards R340 at once, request and acknowledge equal (R341). The other
crossing registers and the signal's: log 20. -/
def chipReset : Chip :=
  { wc := State.reset.wc, msc := State.reset.msc, synced := State.reset.synced, lsm := State.reset.lsm
    mscGray := grayOf State.reset.msc
    reqSync1 := false, reqSync2 := false, ack := false, engRun := false
    decEn := State.reset.decEn, lvl := State.reset.lvl, lem := State.reset.lem, cnt := State.reset.cnt, f := State.reset.f
    hold := Wallclock.epoch
    req := false, ackSync1 := false, ackSync2 := false
    graySync1 := grayOf State.reset.msc, graySync2 := grayOf State.reset.msc
    sigSync1 := .low, sigSync2 := .low, sigPrev := .low
    edges := [], decRun := false }

/-- The pending handoff the handshake holds: from the toggle of the request to the toggle of the acknowledge (20_memory R91). -/
def Chip.pend (c : Chip) : Option Wallclock := if c.req = c.ack then none else some c.hold

/-- The block's registers as the realisation holds them; `msc` is the counter value the viewer sees. The model's own fields are
empty, but for the edges that wait. -/
def Chip.view (c : Chip) (msc : BitVec 16) : State :=
  { wc := c.wc, msc := msc, synced := c.synced, lsm := c.lsm
    decEn := c.decEn, lvl := c.lvl, lem := c.lem, cnt := c.cnt, f := c.f
    pend := c.pend
    input := [], waiting := [], turns := [], issuer := .resetInput, trace := [] }

/-- The decoder sees the acknowledge, so it may take an edge (20_memory R91). -/
def Chip.decoderReady (c : Chip) : Bool := c.req == c.ackSync2

/-- The engine sees the toggled request (20_memory R91). -/
def Chip.handoffSeen (c : Chip) : Bool := c.reqSync2 != c.ack

/-- The engine registers of a state written into the realisation, with the Gray copy of the counter in the same cycle (R90). -/
def Chip.putEngine (t : State) (c : Chip) : Chip :=
  { c with wc := t.wc, msc := t.msc, synced := t.synced, lsm := t.lsm, mscGray := grayOf t.msc }

/-- The decoder registers of a state written into the realisation. A handoff it issues goes to the holding register and toggles the
request (R91). -/
def Chip.putDecoder (t : State) (c : Chip) : Chip :=
  { c with
    decEn := t.decEn, lvl := t.lvl, lem := t.lem, cnt := t.cnt, f := t.f
    hold := t.pend.getD c.hold
    req := if t.pend.isSome then !c.req else c.req }

/-- The engine's operations of one `clk_eng` cycle on the block's registers: TICK first, HANDOFF second (20_memory R92). -/
def engineOps (tick : Bool) (handoff : Option Wallclock) (s : State) : State :=
  let t := if tick then s.tick else s
  match handoff with
  | some w => t.applyHandoff w
  | none => t

/-- The outputs of the engine domain (30_encoding R130). -/
structure EngineOut where
  ms : BitVec 16
  wc : BitVec 64
  synced : Bool
  refresh : Bool
  deriving DecidableEq, Repr

/-- The engine registers after a `clk_eng` cycle that is not in reset. -/
def Chip.engineNext (tick : Bool) (c : Chip) : State :=
  engineOps tick (if c.handoffSeen then some c.hold else none) (c.view c.msc)

/-- One `clk_eng` cycle with input `tick_i` (20_memory R89 to R92). The first cycle after reset only leaves reset (R341). -/
def Chip.clkEng (tick : Bool) (c : Chip) : Chip :=
  if c.engRun = false then { c with engRun := true }
  else
    { c.putEngine (c.engineNext tick) with
      reqSync1 := c.req
      reqSync2 := c.reqSync1
      ack := if c.handoffSeen then !c.ack else c.ack }

/-- The engine outputs of a `clk_eng` cycle, sampled after the cycle's update (20_memory R92, 30_encoding R130, R131). -/
def Chip.engineOut (tick : Bool) (c : Chip) : EngineOut :=
  let n := c.clkEng tick
  { ms := n.msc
    wc := pack n.wc
    synced := n.synced
    refresh := c.engRun && decide (Event.refresh ∈ (c.engineNext tick).trace) }

/-- The strobes of the enable policy: DECEN, then DECDIS (30_encoding R130). -/
def strobes (set clr : Bool) (s : State) : State :=
  let t := if set then s.setDecEn true else s
  if clr then t.setDecEn false else t

/-- A change seen in this cycle is discarded as it arrives: the decoder is ready and, once this cycle's strobes have acted, masked
(60_exceptions R305, 42_decoder R201). -/
def Chip.discards (set clr : Bool) (c : Chip) : Bool := c.decoderReady && !(strobes set clr (c.view c.msc)).decEn

/-- The edges that wait once this cycle's change of the synchronised input is seen (30_encoding R130). -/
def Chip.edgesSeen (set clr : Bool) (c : Chip) : List Level :=
  if c.sigSync2 = c.sigPrev || c.discards set clr then c.edges else c.edges ++ [c.sigSync2]

/-- The decoder registers after a `clk_dec` cycle that is not in reset: the strobes, then the oldest edge where the decoder is
ready (log 20), with the counter sampled through its synchroniser (20_memory R90). -/
def Chip.decoderNext (set clr : Bool) (c : Chip) : State :=
  let s := strobes set clr { c.view (ungray c.graySync2) with pend := none }
  match c.decoderReady, c.edgesSeen set clr with
  | true, l :: _ => s.handleEdge l
  | _, _ => s

/-- One `clk_dec` cycle with inputs `sig_i`, `dec_en_set_i`, `dec_en_clr_i` (20_memory R89 to R91, 30_encoding R130). The first
cycle after reset only leaves reset (R341). -/
def Chip.clkDec (sig : Level) (set clr : Bool) (c : Chip) : Chip :=
  if c.decRun = false then { c with decRun := true }
  else
    { c.putDecoder (c.decoderNext set clr) with
      edges := if c.decoderReady then (c.edgesSeen set clr).tail else c.edgesSeen set clr
      sigPrev := c.sigSync2
      sigSync2 := c.sigSync1
      sigSync1 := sig
      graySync2 := c.graySync1
      graySync1 := c.mscGray
      ackSync2 := c.ackSync1
      ackSync1 := c.ack }

/-- What can happen at the ports of the realisation: a cycle of either clock, or `rst_n` low. -/
inductive ChipEvent where
  | clkEng (tick : Bool)
  | clkDec (sig : Level) (set clr : Bool)
  | rstLow
  deriving DecidableEq, Repr

/-- One event of the realisation; the two clocks are unrelated, so events come in any order. -/
def Chip.next (c : Chip) : ChipEvent → Chip
  | .clkEng tick => c.clkEng tick
  | .clkDec sig set clr => c.clkDec sig set clr
  | .rstLow => chipReset

end Sys2Proof.Machine
end

