-- ==== Sys2Proof/Safety.lean ====
section
/-! DEFINITION. The terms claims use: runs of operations, what a run shows, valid dates, reachable ranges, handoff latency. -/

namespace Sys2Proof.Machine

/-- A run of operations in one interleaving (00_scope R7), stopping at the first refusal. -/
def runOps : List Instr → State → Host.Outcome State Fault Refusal
  | [], s => .next s
  | i :: is, s =>
    match exec i s with
    | .next t => runOps is t
    | .fault r => .fault r
    | .refused r => .refused r

/-- The state after `n` TICKs. -/
def ticksFrom : Nat → State → State
  | 0, s => s
  | n + 1, s => ticksFrom n s.tick

/-- What the environment has observed, oldest first (60_exceptions R318). -/
def State.observation (s : State) : List Event := s.trace.reverse

/-- The operation word `op` spells the operation `i`, whatever bytes follow (30_encoding R101). -/
def hasWord (op : Byte) (i : Instr) : Prop := ∀ rest, decode (op :: rest) = .ok (i, rest)

/-- The TICK from `w` carries into the second (41_timebase R162). -/
abbrev Wallclock.carriesSecond (w : Wallclock) : Prop := 1000 ≤ w.millisecond.toNat + 1

/-- The TICK from `w` carries into the minute: a minute rollover (41_timebase R162, R164). -/
abbrev Wallclock.carriesMinute (w : Wallclock) : Prop := w.carriesSecond ∧ 60 ≤ w.second.toNat + 1

/-- The TICK from `w` carries into the hour (41_timebase R162). -/
abbrev Wallclock.carriesHour (w : Wallclock) : Prop := w.carriesMinute ∧ 60 ≤ w.minute.toNat + 1

/-- The TICK from `w` carries into the day (41_timebase R162). -/
abbrev Wallclock.carriesDay (w : Wallclock) : Prop := w.carriesHour ∧ 24 ≤ w.hour.toNat + 1

/-- The TICK from `w` carries into the month (41_timebase R163). -/
abbrev Wallclock.carriesMonth (w : Wallclock) : Prop := w.carriesDay ∧ dim w.month w.year < w.day.toNat + 1

/-- The TICK from `w` carries into the year (41_timebase R163). -/
abbrev Wallclock.carriesYear (w : Wallclock) : Prop := w.carriesMonth ∧ 12 < w.month.toNat + 1

/-- How many days lie before 1 January of year `y`, counted from 1 January of year 0 (40_calendar R141). -/
def daysBeforeYear (y : Nat) : Nat := 365 * y + (y + 3) / 4 + (y + 399) / 400 - (y + 99) / 100

/-- How many days of year `y` lie before the first day of month `m` (40_calendar R143). -/
def daysBeforeMonth (m : Nat) (y : BitVec 16) : Nat :=
  ((List.range (m - 1)).map fun k => dim (BitVec.ofNat 4 (k + 1)) y).sum

/-- How many milliseconds a valid date and time lies after 0000-01-01 00:00:00.000. -/
def Wallclock.ordinal (w : Wallclock) : Nat :=
  ((((daysBeforeYear w.year.toNat + daysBeforeMonth w.month.toNat w.year + (w.day.toNat - 1)) * 24 + w.hour.toNat) * 60
    + w.minute.toNat) * 60 + w.second.toNat) * 1000 + w.millisecond.toNat

/-- The interval an EDGE step measures: the unsigned difference modulo 65536 (42_decoder R204, 00_scope R10). -/
def intervalMs (s : State) : Nat := (s.msc.toNat + 65536 - s.lem.toNat) % 65536

/-- An EDGE with level `l` is handled: enabled, not masked, not debounced (42_decoder R200 to R202). -/
def handles (s : State) (l : Level) : Prop := s.pend = none ∧ s.waiting = [] ∧ s.decEn = true ∧ l ≠ s.lvl

/-- How many 1 bits the frame has among the `n` positions from `lo` on. -/
def onesIn (f : Frame) (lo n : Nat) : Nat := ((List.range' lo n).filter fun i => f.getLsbD i).length

/-- 1 where position `i` of the frame is 1, else 0. -/
def bitAt (f : Frame) (i : Nat) : Nat := if f.getLsbD i then 1 else 0

/-- A structurally valid calendar date and time (41_timebase R166). -/
def Wallclock.valid (w : Wallclock) : Prop :=
  1 ≤ w.month.toNat ∧ w.month.toNat ≤ 12 ∧ 1 ≤ w.day.toNat ∧ w.day.toNat ≤ dim w.month w.year ∧
    w.hour.toNat < 24 ∧ w.minute.toNat < 60 ∧ w.second.toNat < 60 ∧ w.millisecond.toNat < 1000

/-- The bounds every stored wallclock value stays inside (10_state R33). -/
def Wallclock.inBounds (w : Wallclock) : Prop :=
  w.month.toNat ≤ 12 ∧ w.day.toNat ≤ 45 ∧ w.hour.toNat ≤ 23 ∧ w.minute.toNat ≤ 59 ∧ w.second.toNat ≤ 59 ∧
    w.millisecond.toNat ≤ 999

/-- The bounds of a pending handoff (10_state R47 item 4). -/
def Wallclock.handoffBounds (w : Wallclock) : Prop :=
  w.second = 0 ∧ w.millisecond = 0 ∧ w.minute.toNat ≤ 59 ∧ w.hour.toNat ≤ 23 ∧ w.month.toNat ≤ 12 ∧ w.day.toNat ≤ 45 ∧
    2000 ≤ w.year.toNat ∧ w.year.toNat ≤ 2099

/-- The reachable ranges: 10_state R33, R47 items 1, 2 and 4, and `LSM ≤ 59` (41_timebase R164). -/
structure State.Inv (s : State) : Prop where
  wc : s.wc.inBounds
  lsm : s.lsm.toNat ≤ 59
  cnt : s.cnt.toNat ≤ 61
  frame : ∀ i, s.cnt.toNat ≤ i → s.f.getLsbD i = false
  pend : ∀ w, s.pend = some w → w.handoffBounds

/-- Two states that agree on every register of the engine (00_scope R16). -/
def sameEngine (s t : State) : Prop := t.wc = s.wc ∧ t.msc = s.msc ∧ t.synced = s.synced ∧ t.lsm = s.lsm

/-- Two states that agree on every register of the decoder (00_scope R16). -/
def sameDecoder (s t : State) : Prop :=
  t.decEn = s.decEn ∧ t.lvl = s.lvl ∧ t.lem = s.lem ∧ t.cnt = s.cnt ∧ t.f = s.f

/-- Two states that agree on all that the environment presents (the model's own fields but the trace). -/
def sameEnvironment (s t : State) : Prop :=
  t.input = s.input ∧ t.waiting = s.waiting ∧ t.turns = s.turns ∧ t.issuer = s.issuer

/-- The TICKs of a sequence of operations. -/
def tickCount (ops : List Instr) : Nat := ops.count .tick

/-- An operation that neither hands off nor resets. -/
def keepsTime : Instr → Bool
  | .tick => true
  | .edge _ => true
  | .getms => true
  | .snap => true
  | .syncq => true
  | .handoff _ => false
  | .decen => true
  | .decdis => true
  | .reset => false

/-- The run `ops` from `s` meets the bound `HANDOFF_MAX_TICKS` (00_scope R8, 20_memory R73): no more TICKs fall while a handoff is
pending, `k` of them having fallen. With no bound every run meets it. The rule bounds the TICKs between an EDGE and its HANDOFF;
that the TICKs count too where no HANDOFF follows, since a RESET discards the handoff or the run ends, is the model's (DESIGN
CHOICE, log 22). -/
def meetsHandoffBound (bound : Option Nat) : List Instr → State → Nat → Bool
  | [], _, _ => true
  | i :: is, s, k =>
    match exec i s with
    | .next t =>
      let n := if i = .tick ∧ s.pend.isSome then k + 1 else k
      match bound with
      | none => true
      | some b => decide (n ≤ b) && meetsHandoffBound bound is t (if t.pend.isSome then n else 0)
    | _ => true

/-- The handshake of the realisation carries at most one toggle at a time along request, its two stages, acknowledge, its two
stages (20_memory R91): the chain of bits changes value at most once. -/
def Chip.handshake (c : Chip) : Prop :=
  List.count true
    [c.req != c.reqSync1, c.reqSync1 != c.reqSync2, c.reqSync2 != c.ack, c.ack != c.ackSync1, c.ackSync1 != c.ackSync2] ≤ 1

end Sys2Proof.Machine
end

