-- ==== Sys2Proof/Certificates/Slice0/Obligations.lean ====
section
/-! DEFINITION. The statements for the provers. Each docstring names the rule of spec/ a statement formalises; where a statement
rests on a choice of the model it names the log entry. A rule the spec marks `[decision: see D<n>]` is followed as the rule gives
it; a rule it marks `[derived: ...]` gives a statement of basis 'derived'. A statement about HANDOFF's effect takes the operand
41_timebase R176 gives it, `pack w` of the pending `w`; where a statement says something of every operation, a HANDOFF with another
operand is among them, which is the model's reading (log 7). -/

open Sys2Proof Sys2Proof.Machine

/-! ### Encoding -/

/-- 30_encoding R101 to R103, R105, R106: decoding the bytes of a well-formed operation gives it back, with the bytes after it. -/
def Obligations.DecodeEncodeAgree : Prop :=
  ∀ (i : Instr) (rest : List Byte), i.wellFormed = true → decode (encode i ++ rest) = .ok (i, rest)

/-- 30_encoding R105, R106: bytes that decode to an operation are the operation's own bytes and those left over, so no operation
has a second spelling. -/
def Obligations.OneSpellingPerOperation : Prop :=
  ∀ (bytes rest : List Byte) (i : Instr), decode bytes = .ok (i, rest) → bytes = encode i ++ rest

/-- 30_encoding R105: the tests in their order, and the ten words that spell an operation. -/
def Obligations.WordsThatSpellOperations : Prop :=
  (∀ (op : Byte) (rest : List Byte),
    (op.extractLsb' 5 3 ≠ 0 → decode (op :: rest) = .error (.reservedWord op)) ∧
    (op.extractLsb' 5 3 = 0 → op.extractLsb' 0 4 = 1 →
      decode (op :: rest) = .ok (.edge (if op.getLsbD 4 then .high else .low), rest)) ∧
    (op.extractLsb' 5 3 = 0 → op.extractLsb' 0 4 ≠ 1 → op.getLsbD 4 = true →
      decode (op :: rest) = .error (.reservedWord op)) ∧
    (op.extractLsb' 5 3 = 0 → op.extractLsb' 0 4 ≠ 1 → op.getLsbD 4 = false → 8 < (op.extractLsb' 0 4).toNat →
      decode (op :: rest) = .error (.reservedWord op)) ∧
    (decode (op :: rest) ≠ .error (.reservedWord op) ↔
      op ∈ ([0x00, 0x01, 0x11, 0x02, 0x03, 0x04, 0x05, 0x06, 0x07, 0x08] : List Byte))) ∧
  hasWord 0x00 .tick ∧ hasWord 0x02 .getms ∧ hasWord 0x03 .snap ∧ hasWord 0x04 .syncq ∧
  (∀ b0 b1 b2 b3 b4 b5 b6 b7 : Byte,
    ∃ x, ∀ rest, decode (0x05 :: b0 :: b1 :: b2 :: b3 :: b4 :: b5 :: b6 :: b7 :: rest) = .ok (.handoff x, rest)) ∧
  hasWord 0x06 .decen ∧ hasWord 0x07 .decdis ∧ hasWord 0x08 .reset

/-- 95_test_vectors 2.1: words of every family written out from 30_encoding R101 and R103 decode to their operations, and the
operand of HANDOFF is read least significant byte first. -/
def Obligations.WrittenWordsDecode : Prop :=
  decode [0x00] = .ok (.tick, []) ∧ decode [0x01] = .ok (.edge .low, []) ∧ decode [0x11] = .ok (.edge .high, []) ∧
  decode [0x03, 0x04] = .ok (.snap, [0x04]) ∧
  decode [0x05, 0x00, 0x00, 0x9E, 0x7B, 0x0C, 0xFD, 0x00, 0x00] = .ok (.handoff 0x0000FD0C7B9E0000, []) ∧
  decode [0x07] = .ok (.decdis, []) ∧ decode [0x08] = .ok (.reset, []) ∧
  decode [0x10] = .error (.reservedWord 0x10) ∧ decode [0x0F] = .error (.reservedWord 0x0F)

/-- 30_encoding R115: the bits of the packed wallclock word. -/
def Obligations.PackedWordLayout : Prop :=
  ∀ w : Wallclock,
    (pack w).extractLsb' 0 10 = w.millisecond ∧ (pack w).extractLsb' 10 6 = w.second ∧
    (pack w).extractLsb' 16 6 = w.minute ∧ (pack w).extractLsb' 22 5 = w.hour ∧ (pack w).extractLsb' 27 6 = w.day ∧
    (pack w).extractLsb' 33 4 = w.month ∧ (pack w).extractLsb' 37 16 = w.year ∧ (pack w).extractLsb' 53 11 = 0

/-- 30_encoding R116 (in part derived by the spec): unpack inverts pack and ignores bits 63:53. -/
def Obligations.UnpackInvertsPack : Prop :=
  (∀ w : Wallclock, unpack (pack w) = w) ∧
  ∀ x y : Packed, x.extractLsb' 0 53 = y.extractLsb' 0 53 → unpack x = unpack y

/-! ### The step -/

/-- 20_memory R70, 30_encoding R105, R107, and the model's own interleaving (logs 1 and 3): when the presented item goes next and
its bytes decode to a well-formed operation its agent may issue, the step is `exec` of that operation, the item taken from `input`,
its agent recorded, and the environment's choice read where there is one. -/
def Obligations.StepRunsPresentedOperation : Prop :=
  ∀ (s : State) (q : Item) (later : List Item) (i : Instr),
    s.input = q :: later → decode q.bytes = .ok (i, []) → i.wellFormed = true → mayIssue q.agent i = true →
    (s.waiting = [] ∨ s.pend ≠ none → step s = exec i { s with input := later, issuer := q.agent }) ∧
    (∀ ts, s.waiting ≠ [] → s.pend = none → s.turns = true :: ts →
      step s = exec i { s with input := later, turns := ts, issuer := q.agent })

/-- 20_memory R74, 70_reset_and_hazards R347 and the model's own interleaving (logs 2 and 3): a waiting edge that has become enabled
is handled by a step of its own, the oldest first, unless the environment lets a presented operation go before it. That step is
EDGE of the edge's level in the state of that step, none waiting before it; the edges behind it go on waiting. With nothing
presented and no enabled waiting edge no operation is taken. -/
def Obligations.StepWithoutPresentedOperation : Prop :=
  (∀ (s : State) (l : Level) (ls : List Level), s.waiting = l :: ls → s.pend = none →
    (s.input = [] →
      ∃ t, exec (.edge l) { s with waiting := [], issuer := .edgeSource } = .next t ∧
        step s = .next { t with waiting := ls }) ∧
    (s.input ≠ [] → s.turns.head? ≠ some true →
      ∃ t, exec (.edge l) { s with waiting := [], turns := s.turns.tail, issuer := .edgeSource } = .next t ∧
        step s = .next { t with waiting := ls })) ∧
  (∀ s : State, s.input = [] → s.waiting = [] ∨ s.pend ≠ none → step s = .next s)

/-- 30_encoding R112: a reserved word, a HANDOFF not issued by the synchroniser and a HANDOFF with `PEND = none` are refused, and
the run with them. -/
def Obligations.RefusedItems : Prop :=
  ∀ (s t : State) (q : Item), s.nextTurn = .presented q t →
    (∀ op rest, q.bytes = op :: rest →
      op ∉ ([0x00, 0x01, 0x11, 0x02, 0x03, 0x04, 0x05, 0x06, 0x07, 0x08] : List Byte) →
      step s = .refused (.reservedWord op) ∧ ∀ k, core.run (k + 1) s = .refused (.reservedWord op)) ∧
    (∀ x, q.bytes = encode (.handoff x) → q.agent ≠ .synchroniser →
      step s = .refused (.notItsAgent q.agent) ∧ ∀ k, core.run (k + 1) s = .refused (.notItsAgent q.agent)) ∧
    (∀ x, q.bytes = encode (.handoff x) → q.agent = .synchroniser → s.pend = none →
      step s = .refused .handoffWithoutPending ∧ ∀ k, core.run (k + 1) s = .refused .handoffWithoutPending)

/-- 60_exceptions R300, R302, 30_encoding R107, R112: a step stops for no other reason than these. That an item must be exactly one
operation, and that every operation is refused from a foreign agent, are the model's (logs 8 and 9). -/
def Obligations.StepStopsOnlyAtRefusals : Prop :=
  ∀ s : State,
    (∀ r, step s ≠ .fault r) ∧
    (∀ r, step s = .refused r →
      ∃ q t, s.nextTurn = .presented q t ∧
        ((∃ op rest, q.bytes = op :: rest ∧ decode q.bytes = .error (.reservedWord op) ∧ r = .reservedWord op) ∨
         ((∀ i, q.bytes ≠ encode i) ∧ r = .malformedItem) ∨
         (∃ i, q.bytes = encode i ∧ mayIssue q.agent i = false ∧ r = .notItsAgent q.agent) ∨
         (∃ x, q.bytes = encode (.handoff x) ∧ t.pend = none ∧ r = .handoffWithoutPending)))

/-- 20_memory R74: which operations are enabled where, and an edge that is not enabled waits. The last clause, that it waits even
while the decoder is masked, is the MODEL's choice between R74 and 60_exceptions R305 (log 4). -/
def Obligations.EnablingConditions : Prop :=
  (∀ (s : State) (w : Wallclock), s.pend = some w → ∃ t, exec (.handoff (pack w)) s = .next t) ∧
  (∀ (s : State) (x : Packed), s.pend = none → ¬ ∃ t, exec (.handoff x) s = .next t) ∧
  (∀ (s : State) (i : Instr), i ∈ ([.tick, .snap, .getms, .syncq, .decen, .decdis, .reset] : List Instr) →
    ∃ t, exec i s = .next t) ∧
  (∀ (s : State) (l : Level), s.pend ≠ none → s.decEn = true →
    exec (.edge l) s = .next { s with waiting := s.waiting ++ [l] }) ∧
  (∀ (s : State) (l : Level), s.pend ≠ none → s.decEn = false →
    exec (.edge l) s = .next { s with waiting := s.waiting ++ [l] })

/-- 20_memory R72, as the MODEL reads it (log 3, and log 4 where the decoder is masked): an edge presented while an older edge still
waits goes behind it, unless it arrives masked with no handoff pending; then it is discarded (60_exceptions R305). -/
def Obligations.LaterEdgeWaitsBehindOlder : Prop :=
  (∀ (s : State) (l : Level), s.waiting ≠ [] → s.decEn = true ∨ s.pend ≠ none →
    exec (.edge l) s = .next { s with waiting := s.waiting ++ [l] }) ∧
  (∀ (s : State) (l : Level), s.waiting ≠ [] → s.decEn = false → s.pend = none → exec (.edge l) s = .next s)

/-- 10_state R48: who may issue what; no result returned to an agent depends on `LSM`, `DEC_EN`, `LVL`, `LEM`, `CNT`, `F` or `PEND`;
and only an EDGE step, with a frame that is valid and plausible, makes a handoff pending. -/
def Obligations.AccessRights : Prop :=
  (∀ (a : Agent) (i : Instr), mayIssue a i = true ↔
    ((i = .snap ∨ i = .syncq ∨ i = .getms) ∧ ∃ n, a = .reader n) ∨ ((i = .decen ∨ i = .decdis) ∧ a = .enablePolicy) ∨
    (i = .tick ∧ a = .tickSource) ∨ ((∃ l, i = .edge l) ∧ a = .edgeSource) ∨ ((∃ x, i = .handoff x) ∧ a = .synchroniser) ∨
    (i = .reset ∧ a = .resetInput)) ∧
  (∀ (i : Instr) (s t s' t' : State), exec i s = .next s' → exec i t = .next t' →
    t.wc = s.wc → t.msc = s.msc → t.synced = s.synced → t.issuer = s.issuer → t.trace = s.trace → t'.trace = s'.trace) ∧
  (∀ (i : Instr) (s t : State) (w : Wallclock), exec i s = .next t → s.pend = none → t.pend = some w →
    i = .edge .high ∧ frameValid s.f = true ∧ plausible (frameDecode s.f) = true ∧ w = syncVal (frameDecode s.f))

/-! ### Calendar -/

/-- 40_calendar R141, R142, R143: the leap-year predicate and the days in a month. -/
def Obligations.LeapYearsAndMonthLengths : Prop :=
  (∀ y : BitVec 16, leap y.toNat = true ↔
    (y.toNat % 4 = 0 ∧ y.toNat % 100 ≠ 0) ∨ y.toNat % 400 = 0) ∧
  (∀ (m : BitVec 4) (y : BitVec 16),
    dim m y = [31, 31, 28, 31, 30, 31, 30, 31, 31, 30, 31, 30, 31, 31, 31, 31].getD m.toNat 0 +
      (if m.toNat = 2 ∧ ((y.toNat % 4 = 0 ∧ y.toNat % 100 ≠ 0) ∨ y.toNat % 400 = 0) then 1 else 0)) ∧
  dim 2 2000 = 29 ∧ dim 2 1900 = 28 ∧ dim 2 2024 = 29 ∧ dim 2 2023 = 28 ∧ dim 2 0 = 29

/-- 40_calendar R144 (derived by the spec): a month has 28 to 31 days. -/
def Obligations.MonthLengthBounds : Prop :=
  ∀ (m : BitVec 4) (y : BitVec 16), 28 ≤ dim m y ∧ dim m y ≤ 31

/-! ### TICK -/

/-- 41_timebase R160, R162, R163: TICK runs in every state; each field of the wallclock, the counter, and what stays. The clause on
`SYNCED` is the rule's own on every state whose `LSM` is at most `60 + mi`, which every reachable state is (elsewhere the
difference is a free value, log 10). -/
def Obligations.TickAdvancesTimeBase : Prop :=
  hasWord 0x00 .tick ∧ (∀ a, mayIssue a .tick = true ↔ a = .tickSource) ∧
  ∀ s : State, ∃ t, exec .tick s = .next t ∧
    t.msc.toNat = (s.msc.toNat + 1) % 65536 ∧
    t.wc.millisecond.toNat = (if s.wc.carriesSecond then 0 else s.wc.millisecond.toNat + 1) ∧
    t.wc.second.toNat =
      (if s.wc.carriesMinute then 0 else if s.wc.carriesSecond then s.wc.second.toNat + 1 else s.wc.second.toNat) ∧
    t.wc.minute.toNat =
      (if s.wc.carriesHour then 0 else if s.wc.carriesMinute then s.wc.minute.toNat + 1 else s.wc.minute.toNat) ∧
    t.wc.hour.toNat =
      (if s.wc.carriesDay then 0 else if s.wc.carriesHour then s.wc.hour.toNat + 1 else s.wc.hour.toNat) ∧
    t.wc.day.toNat =
      (if s.wc.carriesMonth then 1 else if s.wc.carriesDay then s.wc.day.toNat + 1 else s.wc.day.toNat) ∧
    t.wc.month.toNat =
      (if s.wc.carriesYear then 1 else if s.wc.carriesMonth then s.wc.month.toNat + 1 else s.wc.month.toNat) ∧
    t.wc.year.toNat = (if s.wc.carriesYear then (s.wc.year.toNat + 1) % 65536 else s.wc.year.toNat) ∧
    (¬ s.wc.carriesMinute ∨ s.synced = false → t.synced = s.synced) ∧
    (s.wc.carriesMinute → s.synced = true → s.lsm.toNat ≤ 60 + t.wc.minute.toNat →
      (t.synced = false ↔ 5 < (60 + t.wc.minute.toNat - s.lsm.toNat) % 60)) ∧
    t.trace = (if t.wc.millisecond.toNat = 0 ∨ t.wc.millisecond.toNat = 500 then .refresh :: s.trace else s.trace) ∧
    t.lsm = s.lsm ∧ t.pend = s.pend ∧ sameDecoder s t ∧ sameEnvironment s t

/-- 41_timebase R161: every TICK increments `MSC` modulo 65536, and no other operation but RESET writes it. -/
def Obligations.CounterWrittenOnlyByTickAndReset : Prop :=
  ∀ (i : Instr) (s t : State), exec i s = .next t →
    (i = .tick → t.msc = s.msc + 1 ∧ t.wc = s.wc.nextMilli) ∧ (i ≠ .tick → i ≠ .reset → t.msc = s.msc)

/-- 41_timebase R165: one REFRESH where the millisecond a TICK leaves is 0 or 500, and only TICK emits one; in the realisation it is
the pulse `refresh_o` of the tick's cycle. -/
def Obligations.RefreshOnlyAtTicksToZeroOr500 : Prop :=
  (∀ s t : State, exec .tick s = .next t →
    t.trace.count .refresh =
      s.trace.count .refresh + (if t.wc.millisecond = 0 ∨ t.wc.millisecond = 500 then 1 else 0)) ∧
  (∀ (i : Instr) (s t : State), i ≠ .tick → exec i s = .next t → t.trace.count .refresh = s.trace.count .refresh) ∧
  (∀ (c : Chip) (tick : Bool), c.engRun = true →
    ((c.engineOut tick).refresh = true ↔
      tick = true ∧ (c.wc.nextMilli.millisecond = 0 ∨ c.wc.nextMilli.millisecond = 500)))

/-- 41_timebase R166 (derived by the spec): TICK takes a valid date to a valid date. -/
def Obligations.TickKeepsValidDate : Prop :=
  ∀ s t : State, s.wc.valid → exec .tick s = .next t → t.wc.valid

/-- 41_timebase R160 to R163, 40_calendar R141 to R143: on valid dates the carry chain is calendar addition. A TICK moves the time
to the next millisecond of the proleptic Gregorian calendar, counted from year 0; the one TICK left out is the one that wraps the
16-bit year. -/
def Obligations.TickIsNextCalendarMillisecond : Prop :=
  ∀ s t : State, s.wc.valid → s.wc.year.toNat < 65535 ∨ ¬ s.wc.carriesYear → exec .tick s = .next t → t.wc.ordinal = s.wc.ordinal + 1

/-! ### Reads -/

/-- 41_timebase R170: GETMS returns the counter to the agent that issued it and changes nothing else. -/
def Obligations.GetmsReturnsCounter : Prop :=
  hasWord 0x02 .getms ∧ (∀ a, mayIssue a .getms = true ↔ ∃ n, a = .reader n) ∧
  (∀ s : State, exec .getms s = .next { s with trace := .ms s.issuer s.msc :: s.trace }) ∧
  exec .getms (ticksFrom 70000 State.reset) =
    .next { ticksFrom 70000 State.reset with trace := .ms .resetInput 4464 :: (ticksFrom 70000 State.reset).trace }

/-- 41_timebase R172: SNAP returns the packed wallclock to the agent that issued it and changes nothing else. -/
def Obligations.SnapReturnsPackedWallclock : Prop :=
  hasWord 0x03 .snap ∧ (∀ a, mayIssue a .snap = true ↔ ∃ n, a = .reader n) ∧
  (∀ s : State, exec .snap s = .next { s with trace := .wallclock s.issuer (pack s.wc) :: s.trace }) ∧
  pack State.reset.wc = 0x0000F64208000000

/-- 41_timebase R174: SYNCQ returns the flag to the agent that issued it and changes nothing else. -/
def Obligations.SyncqReturnsFlag : Prop :=
  hasWord 0x04 .syncq ∧ (∀ a, mayIssue a .syncq = true ↔ ∃ n, a = .reader n) ∧
  (∀ s : State, exec .syncq s = .next { s with trace := .synced s.issuer (if s.synced then 1 else 0) :: s.trace }) ∧
  State.reset.synced = false

/-- 20_memory R77: the reads change no state (the output trace is none), and a register that no operation of a run writes reads
the same after the run as before it. -/
def Obligations.ReadsHaveNoSideEffect : Prop :=
  (∀ (i : Instr) (s t : State), i ∈ ([.snap, .getms, .syncq] : List Instr) → exec i s = .next t →
    t = { s with trace := t.trace }) ∧
  (∀ (ops : List Instr) (s t : State), runOps ops s = .next t → (∀ i ∈ ops, i ≠ .tick ∧ i ≠ .reset) → t.msc = s.msc) ∧
  (∀ (ops : List Instr) (s t : State), runOps ops s = .next t → (∀ i ∈ ops, i ≠ .tick ∧ keepsTime i = true) →
    t.wc = s.wc ∧ t.synced = s.synced)

/-! ### HANDOFF, the flag, staleness -/

/-- 41_timebase R176: HANDOFF applies the pending value to the engine in one step, and is refused where none is pending. -/
def Obligations.HandoffAppliesPending : Prop :=
  (∀ (w : Wallclock) (rest : List Byte),
    decode (0x05 :: (List.range 8).map (fun k => (pack w).extractLsb' (8 * k) 8) ++ rest) = .ok (.handoff (pack w), rest)) ∧
  (∀ a x, mayIssue a (.handoff x) = true ↔ a = .synchroniser) ∧
  (∀ (s : State) (w : Wallclock), s.pend = some w →
    exec (.handoff (pack w)) s = .next { s with wc := w, synced := true, lsm := w.minute, pend := none }) ∧
  (∀ (s : State) (x : Packed), s.pend = none → exec (.handoff x) s = .refused .handoffWithoutPending)

/-- The MODEL's reading (log 7): HANDOFF's operand is not read, as the pseudocode of 41_timebase R176 does not read it. -/
def Obligations.HandoffOperandNotRead : Prop :=
  ∀ (s : State) (x : Packed) (w : Wallclock), s.pend = some w →
    exec (.handoff x) s = .next { s with wc := w, synced := true, lsm := w.minute, pend := none }

/-- 10_state R36: only HANDOFF sets `SYNCED`, only TICK by its staleness check and RESET clear it, SYNCQ reads it, and it is 0
after reset. The difference is the rule's where `LSM` is at most `60 + mi`, as on every reachable state (log 10). -/
def Obligations.SyncedSetOnlyByHandoff : Prop :=
  (∀ (i : Instr) (s t : State), exec i s = .next t → s.synced = false → t.synced = true → ∃ x, i = .handoff x) ∧
  (∀ (s : State) (w : Wallclock), s.pend = some w → ∃ t, exec (.handoff (pack w)) s = .next t ∧ t.synced = true) ∧
  (∀ (i : Instr) (s t : State), exec i s = .next t → s.synced = true → t.synced = false →
    i = .reset ∨ (i = .tick ∧ s.wc.carriesMinute ∧ (s.lsm.toNat ≤ 60 + t.wc.minute.toNat →
      5 < (60 + t.wc.minute.toNat - s.lsm.toNat) % 60))) ∧
  (∀ s : State, exec .syncq s = .next { s with trace := .synced s.issuer (BitVec.ofBool s.synced) :: s.trace }) ∧
  (∀ s : State, ∃ t, exec .reset s = .next t ∧ t.synced = false) ∧
  State.reset.synced = false

/-- 10_state R47 item 5 (derived by the spec), 41_timebase R178: along any run, `SYNCED` becomes 1 only if a HANDOFF has run. -/
def Obligations.SyncedNeedsHandoff : Prop :=
  ∀ (ops : List Instr) (s t : State), runOps ops s = .next t → s.synced = false → t.synced = true →
    ∃ x, Instr.handoff x ∈ ops

/-- 10_state R34: TICK writes its incremented value, HANDOFF (with the operand 41_timebase R176 gives it) the handed-off value, RESET
the epoch, each whole; every other operation leaves the wallclock; it is the epoch after reset. -/
def Obligations.WallclockWrittenWhole : Prop :=
  (∀ s t : State, exec .tick s = .next t → t.wc = s.wc.nextMilli) ∧
  (∀ (s t : State) (w : Wallclock), s.pend = some w → exec (.handoff (pack w)) s = .next t → t.wc = w) ∧
  (∀ s t : State, exec .reset s = .next t → t.wc = State.reset.wc) ∧
  (∀ (i : Instr) (s t : State), i ≠ .tick → (∀ x, i ≠ .handoff x) → i ≠ .reset → exec i s = .next t → t.wc = s.wc) ∧
  State.reset.wc =
    { year := 1970, month := 1, day := 1, hour := 0, minute := 0, second := 0, millisecond := 0 }

/-- 41_timebase R177 (derived by the spec): after a HANDOFF, along any run with no other HANDOFF and no RESET, `SYNCED` is 1 until
the 360000th TICK and 0 from it on. -/
def Obligations.StalenessTimeline : Prop :=
  ∀ (s u t : State) (w : Wallclock) (ops : List Instr),
    s.pend = some w → w.handoffBounds → exec (.handoff (pack w)) s = .next u →
    (∀ i ∈ ops, keepsTime i = true) → runOps ops u = .next t →
    t.synced = decide (tickCount ops < 360000)

/-- 41_timebase R168 (derived by the spec): a run with 1000 TICKs, no HANDOFF and no RESET emits exactly two REFRESH, from every
state whose millisecond field is below 1000, as it is on every reachable state. RESET is left out with HANDOFF, since it too writes
the millisecond. -/
def Obligations.TwoRefreshesPerThousandTicks : Prop :=
  ∀ (s t : State) (ops : List Instr),
    s.wc.millisecond.toNat < 1000 → (∀ i ∈ ops, keepsTime i = true) → tickCount ops = 1000 → runOps ops s = .next t →
    t.trace.count .refresh = s.trace.count .refresh + 2

/-- 70_reset_and_hazards R346: whatever runs between the marker's EDGE and its HANDOFF (any number of TICKs among it), the pending
value is kept, and HANDOFF then writes it with the counter as the TICKs left it. -/
def Obligations.HandoffLatency : Prop :=
  ∀ (s t : State) (w : Wallclock) (ops : List Instr),
    s.pend = some w → (∀ i ∈ ops, keepsTime i = true) → runOps ops s = .next t →
    t.pend = some w ∧ t.msc = s.msc + BitVec.ofNat 16 (tickCount ops) ∧ sameDecoder { s with decEn := t.decEn } t ∧
    ∃ u, exec (.handoff (pack w)) t = .next u ∧ u.wc = w ∧ u.msc = t.msc

/-- 00_scope R8, 20_memory R73: where a run meets the bound `HANDOFF_MAX_TICKS`, no more TICKs fall between the EDGE that set `PEND`
and the HANDOFF; with no bound (the parameter is OPEN, log 13) every run is admitted. That a run without its HANDOFF is held to the
bound too is the MODEL's choice (log 22). -/
def Obligations.HandoffBoundLimitsTicks : Prop :=
  (∀ (bound : Nat) (s t : State) (ops : List Instr),
    s.pend ≠ none → (∀ i ∈ ops, keepsTime i = true) → runOps ops s = .next t →
    (meetsHandoffBound (some bound) ops s 0 = true ↔ tickCount ops ≤ bound)) ∧
  (∀ (s : State) (ops : List Instr) (k : Nat), meetsHandoffBound none ops s k = true)

/-! ### EDGE -/

/-- 42_decoder R201, R202: a masked edge, whatever waits before it (60_exceptions R305), and an edge to the recorded level change
nothing. -/
def Obligations.EdgeIgnored : Prop :=
  ∀ (s : State) (l : Level), s.pend = none → s.decEn = false ∨ (s.waiting = [] ∧ l = s.lvl) →
    exec (.edge l) s = .next s

/-- 42_decoder R203, R204: a handled edge records its level and the counter, whatever its classification. -/
def Obligations.EdgeRecordsLevelAndTime : Prop :=
  ∀ (s : State) (l : Level), handles s l →
    ∃ t, exec (.edge l) s = .next t ∧ t.lvl = l ∧ t.lem = s.msc ∧ s.interval.toNat = intervalMs s

/-- 42_decoder R205 to R208, 30_encoding R121: the timing windows, open at both ends. -/
def Obligations.ClassifierWindows : Prop :=
  ∀ iv : BitVec 16,
    (classify .high iv = .marker ↔ 1500 < iv.toNat) ∧ (classify .high iv = .none ↔ iv.toNat ≤ 1500) ∧
    (classify .low iv = .one ↔ 160 < iv.toNat ∧ iv.toNat < 240) ∧
    (classify .low iv = .zero ↔ 60 < iv.toNat ∧ iv.toNat < 140) ∧
    (classify .low iv = .none ↔ iv.toNat ≤ 60 ∨ (140 ≤ iv.toNat ∧ iv.toNat ≤ 160) ∨ 240 ≤ iv.toNat)

/-- 42_decoder R209, R210: a handled LOW edge that is noise, or that comes with `CNT > 60`, changes only the recorded level and
time. -/
def Obligations.LowEdgeWithoutBit : Prop :=
  ∀ s : State, handles s .low →
    60 < s.cnt.toNat ∨ intervalMs s ≤ 60 ∨ (140 ≤ intervalMs s ∧ intervalMs s ≤ 160) ∨ 240 ≤ intervalMs s →
    exec (.edge .low) s = .next { s with lvl := .low, lem := s.msc }

/-- 42_decoder R211: a handled LOW edge with `CNT ≤ 60` in a window appends its bit: stored where `CNT ≤ 58`, every other position
kept, `CNT` one more; nothing else changes but the recorded level and time. -/
def Obligations.LowEdgeAppendsBit : Prop :=
  ∀ (s : State) (b : Bool), handles s .low → s.cnt.toNat ≤ 60 →
    (if b then 160 < intervalMs s ∧ intervalMs s < 240 else 60 < intervalMs s ∧ intervalMs s < 140) →
    ∃ f : Frame,
      exec (.edge .low) s = .next { s with lvl := .low, lem := s.msc, f := f, cnt := s.cnt + 1 } ∧
      (s.cnt + 1).toNat = s.cnt.toNat + 1 ∧
      ∀ i < 59, f.getLsbD i = (if i = s.cnt.toNat then b else s.f.getLsbD i)

/-- 42_decoder R212: a handled HIGH edge that is no marker changes only the recorded level and time. -/
def Obligations.HighEdgeWithoutMarker : Prop :=
  ∀ s : State, handles s .high → intervalMs s ≤ 1500 →
    exec (.edge .high) s = .next { s with lvl := .high, lem := s.msc }

/-- 42_decoder R213, R233, R234: at a marker a frame of exactly 59 bits that is valid and plausible issues the handoff of its value,
and every marker clears the frame; nothing else changes but the recorded level and time. -/
def Obligations.MarkerHandsOffOrDiscards : Prop :=
  ∀ s : State, handles s .high → 1500 < intervalMs s →
    (s.cnt.toNat = 59 → frameValid s.f = true →
      (frameDecode s.f).minute ≤ 59 → (frameDecode s.f).hour ≤ 23 → (frameDecode s.f).month ≤ 12 →
      (frameDecode s.f).year2 ≤ 99 →
      ∃ w : Wallclock,
        exec (.edge .high) s = .next { s with lvl := .high, lem := s.msc, f := 0, cnt := 0, pend := some w } ∧
        w.year.toNat = 2000 + (frameDecode s.f).year2 ∧ w.month.toNat = (frameDecode s.f).month ∧
        w.day.toNat = (frameDecode s.f).day ∧ w.hour.toNat = (frameDecode s.f).hour ∧
        w.minute.toNat = (frameDecode s.f).minute ∧ w.second.toNat = 0 ∧ w.millisecond.toNat = 0) ∧
    (s.cnt.toNat ≠ 59 ∨ frameValid s.f = false ∨ 59 < (frameDecode s.f).minute ∨ 23 < (frameDecode s.f).hour ∨
      12 < (frameDecode s.f).month ∨ 99 < (frameDecode s.f).year2 →
      exec (.edge .high) s = .next { s with lvl := .high, lem := s.msc, f := 0, cnt := 0 })

/-- 42_decoder R220: the six checks; even parity is an even number of 1 bits in the range. -/
def Obligations.ValidFrameIsSixChecks : Prop :=
  ∀ f : Frame, frameValid f = true ↔
    f.getLsbD 0 = false ∧ f.getLsbD 17 ≠ f.getLsbD 18 ∧ f.getLsbD 20 = true ∧
    onesIn f 21 8 % 2 = 0 ∧ onesIn f 29 7 % 2 = 0 ∧ onesIn f 36 23 % 2 = 0

/-- 42_decoder R220 (95_test_vectors W6, V4 to V6): a valid frame with any one bit of positions 21 to 58 flipped is not valid. -/
def Obligations.OneFlippedBitInvalidates : Prop :=
  ∀ (f : Frame) (i : Nat), frameValid f = true → 21 ≤ i → i ≤ 58 → frameValid (f ^^^ BitVec.twoPow 59 i) = false

/-- 42_decoder R230: the weighted sums. -/
def Obligations.DecodedNumbers : Prop :=
  ∀ f : Frame,
    (frameDecode f).minute = bitAt f 21 + 2 * bitAt f 22 + 4 * bitAt f 23 + 8 * bitAt f 24 + 10 * bitAt f 25 +
      20 * bitAt f 26 + 40 * bitAt f 27 ∧
    (frameDecode f).hour = bitAt f 29 + 2 * bitAt f 30 + 4 * bitAt f 31 + 8 * bitAt f 32 + 10 * bitAt f 33 +
      20 * bitAt f 34 ∧
    (frameDecode f).day = bitAt f 36 + 2 * bitAt f 37 + 4 * bitAt f 38 + 8 * bitAt f 39 + 10 * bitAt f 40 +
      20 * bitAt f 41 ∧
    (frameDecode f).month = bitAt f 45 + 2 * bitAt f 46 + 4 * bitAt f 47 + 8 * bitAt f 48 + 10 * bitAt f 49 ∧
    (frameDecode f).year2 = bitAt f 50 + 2 * bitAt f 51 + 4 * bitAt f 52 + 8 * bitAt f 53 + 10 * bitAt f 54 +
      20 * bitAt f 55 + 40 * bitAt f 56 + 80 * bitAt f 57

/-- 42_decoder R232 (derived by the spec): the ranges of the decoded numbers, each bound reached. -/
def Obligations.DecodedRanges : Prop :=
  (∀ f : Frame, (frameDecode f).minute ≤ 85 ∧ (frameDecode f).hour ≤ 45 ∧ (frameDecode f).day ≤ 45 ∧
    (frameDecode f).month ≤ 25 ∧ (frameDecode f).year2 ≤ 165) ∧
  (∃ f : Frame, frameDecode f = { minute := 85, hour := 45, day := 45, month := 25, year2 := 165 })

/-- 95_test_vectors W5: the canonical frame is valid, plausible, and its handoff value is 2024-06-15 14:30:00.000. -/
def Obligations.CanonicalFrameAccepted : Prop :=
  frameValid 0x0490C15286140000 = true ∧ plausible (frameDecode 0x0490C15286140000) = true ∧
  syncVal (frameDecode 0x0490C15286140000) =
    { year := 2024, month := 6, day := 15, hour := 14, minute := 30, second := 0, millisecond := 0 }

/-- 42_decoder R236 (derived by the spec): an EDGE writes no engine register and emits nothing, and of the engine's registers its
effect on the decoder and on `PEND` depends on the counter alone. -/
def Obligations.EdgeIsolatedFromEngine : Prop :=
  (∀ (s t : State) (l : Level), exec (.edge l) s = .next t → sameEngine s t ∧ t.trace = s.trace) ∧
  (∀ (s u s' u' : State) (l : Level),
    u.msc = s.msc → sameDecoder s u → u.pend = s.pend → u.waiting = s.waiting →
    exec (.edge l) s = .next s' → exec (.edge l) u = .next u' →
    sameDecoder s' u' ∧ u'.pend = s'.pend ∧ u'.waiting = s'.waiting)

/-- 42_decoder R240 (derived by the spec), 30_encoding R114: from just after a marker, the spec's test signal for any frame is
received whole: its last edge is a marker that hands the frame's value off exactly where the frame is valid and plausible. -/
def Obligations.TestSignalReceived : Prop :=
  ∀ (s : State) (f : Frame),
    s.decEn = true → s.lvl = .high → s.lem = s.msc → s.cnt = 0 → s.f = 0 → s.pend = none → s.waiting = [] →
    ∃ t, runOps (frameOps f) s = .next t ∧ t.lvl = .high ∧ t.msc = s.msc + 60000 ∧ t.lem = t.msc ∧ t.cnt = 0 ∧ t.f = 0 ∧
      t.pend = (if frameValid f && plausible (frameDecode f) then some (syncVal (frameDecode f)) else none)

/-! ### Control and reset -/

/-- 43_control R260: DECEN sets `DEC_EN` and writes nothing else; its strobe does the same. -/
def Obligations.DecenEnablesDecoder : Prop :=
  hasWord 0x06 .decen ∧ (∀ a, mayIssue a .decen = true ↔ a = .enablePolicy) ∧
  (∀ s : State, exec .decen s = .next { s with decEn := true }) ∧
  (∀ s : State, s.decEn = true → exec .decen s = .next s) ∧
  (∀ s : State, strobes true false s = { s with decEn := true })

/-- 43_control R262: DECDIS clears `DEC_EN` and writes nothing else, the pending handoff included, which HANDOFF still applies; its
strobe does the same. -/
def Obligations.DecdisMasksDecoder : Prop :=
  hasWord 0x07 .decdis ∧ (∀ a, mayIssue a .decdis = true ↔ a = .enablePolicy) ∧
  (∀ s : State, exec .decdis s = .next { s with decEn := false }) ∧
  (∀ s : State, s.decEn = false → exec .decdis s = .next s) ∧
  (∀ (s : State) (w : Wallclock), s.pend = some w →
    ∃ t, runOps [.decdis, .handoff (pack w)] s = .next t ∧ t.wc = w ∧ t.decEn = false) ∧
  (∀ s : State, strobes false true s = { s with decEn := false })

/-- 43_control R264 (derived by the spec): `DEC_EN` affects only EDGE. -/
def Obligations.EnableAffectsOnlyEdge : Prop :=
  ∀ (i : Instr) (s t : State) (b : Bool), i ∈ ([.tick, .snap, .getms, .syncq] : List Instr) ∨ (∃ x, i = .handoff x) →
    exec i s = .next t → exec i { s with decEn := b } = .next { t with decEn := b } ∧ t.decEn = s.decEn

/-- 70_reset_and_hazards R340: RESET puts every register in its reset state, from every state, and emits nothing. What the
environment presents is no register and stays (the model's choice, log 5, said here of no rule). -/
def Obligations.ResetPutsEveryRegister : Prop :=
  hasWord 0x08 .reset ∧ (∀ a, mayIssue a .reset = true ↔ a = .resetInput) ∧
  ∀ s : State, ∃ t, exec .reset s = .next t ∧
    t.wc = { year := 1970, month := 1, day := 1, hour := 0, minute := 0, second := 0, millisecond := 0 } ∧
    t.msc = 0 ∧ t.synced = false ∧ t.lsm = 0 ∧ t.decEn = true ∧ t.lvl = .low ∧ t.lem = 0 ∧ t.cnt = 0 ∧ t.f = 0 ∧
    t.pend = none ∧ t.trace = s.trace

/-- The model's choice (log 5): RESET keeps what the environment presents, the waiting edges included. -/
def Obligations.ResetKeepsEnvironment : Prop :=
  ∀ s t : State, exec .reset s = .next t → sameEnvironment s t

/-! ### Invariant and order -/

/-- 10_state R33, R47: the reset state is inside the reachable ranges. -/
def Obligations.ResetStateInRanges : Prop := State.reset.Inv

/-- 10_state R33, R47 items 1, 2 and 4 (derived by the spec), 41_timebase R164 (`LSM ≤ 59`): every step keeps the ranges. -/
def Obligations.StepKeepsRanges : Prop :=
  ∀ s t : State, s.Inv → step s = .next t → t.Inv

/-- 20_memory R80 (derived by the spec): a read commutes with another read and with the enable control, its result being the same in
either order and the results standing in the trace in the order of the operations; an enabled EDGE and a TICK commute but for the
counter value the EDGE samples; HANDOFF and TICK do not commute. -/
def Obligations.AdjacentStepsCommute : Prop :=
  (∀ (i j : Instr) (s : State), i ∈ ([.snap, .getms, .syncq] : List Instr) →
    j ∈ ([.snap, .getms, .syncq, .decen, .decdis] : List Instr) →
    ∃ (e : Event) (es : List Event) (v t u : State),
      exec i s = .next { s with trace := e :: s.trace } ∧ exec j s = .next v ∧ v.trace = es ++ s.trace ∧
      runOps [i, j] s = .next t ∧ runOps [j, i] s = .next u ∧ { t with trace := [] } = { u with trace := [] } ∧
      t.trace = es ++ e :: s.trace ∧ u.trace = e :: (es ++ s.trace)) ∧
  (∀ (l : Level) (s a b c : State), s.pend = none → s.waiting = [] →
    runOps [.edge l, .tick] s = .next a → exec .tick s = .next b → exec (.edge l) { b with msc := s.msc } = .next c →
    a = { c with msc := s.msc + 1 }) ∧
  (∀ (s : State) (w : Wallclock), s.pend = some w → w.handoffBounds →
    ∃ t u, runOps [.tick, .handoff (pack w)] s = .next t ∧ runOps [.handoff (pack w), .tick] s = .next u ∧
      t.wc = w ∧ u.wc = { w with millisecond := 1 } ∧ t.msc = s.msc + 1 ∧ u.msc = s.msc + 1)

/-! ### The reference realisation -/

/-- 20_memory R90: the Gray code of the counter is converted back exactly, and consecutive counter values, 65535 and 0 included,
differ in one bit of it. -/
def Obligations.GrayCodeOfCounter : Prop :=
  (∀ v : BitVec 16, ungray (grayOf v) = v) ∧
  (∀ v : BitVec 16, ∃ i < 16, grayOf (v + 1) = grayOf v ^^^ BitVec.twoPow 16 i)

/-- 20_memory R91, 70_reset_and_hazards R341: after reset no handoff is outstanding, and every event keeps the handshake to one
toggle in flight. -/
def Obligations.HandshakeKept : Prop :=
  (chipReset.handshake ∧ chipReset.pend = none ∧ chipReset.decoderReady = true ∧ chipReset.handoffSeen = false) ∧
  ∀ (c : Chip) (e : ChipEvent), c.handshake → (c.next e).handshake

/-- 20_memory R91: while a request is outstanding neither clock changes the holding register, and until the decoder sees the
acknowledge it takes no edge. -/
def Obligations.HoldingRegisterStable : Prop :=
  ∀ (c : Chip) (e : ChipEvent), c.handshake → e ≠ .rstLow →
    (c.req ≠ c.ack → (c.next e).hold = c.hold) ∧
    (c.decoderReady = false → (c.next e).lvl = c.lvl ∧ (c.next e).lem = c.lem ∧ (c.next e).cnt = c.cnt ∧
      (c.next e).f = c.f ∧ (c.next e).req = c.req)

/-- 20_memory R89, R92, 30_encoding R130, R131: one engine cycle of the realisation is TICK (where the strobe is up) and then
HANDOFF (where the request is seen) of the block, with the same registers and outputs. The cycle that only leaves reset takes no
operation (log 20) and is not among them. -/
def Obligations.EngineCycleRefines : Prop :=
  ∀ (c : Chip) (tick : Bool), c.handshake → c.engRun = true →
    ∃ t, runOps ((if tick then [.tick] else []) ++ (if c.handoffSeen then [.handoff (pack c.hold)] else [])) (c.view c.msc) =
        .next t ∧
      (c.clkEng tick).view t.msc = { t with trace := [] } ∧ (c.clkEng tick).msc = t.msc ∧
      (c.clkEng tick).mscGray = grayOf t.msc ∧
      c.engineOut tick = { ms := t.msc, wc := pack t.wc, synced := t.synced, refresh := decide (.refresh ∈ t.trace) } ∧
      (tick = true → c.handoffSeen = true →
        t.msc = c.msc + 1 ∧ t.wc = c.hold ∧ t.synced = true ∧ t.lsm = c.hold.minute ∧
        ((c.engineOut tick).refresh = true ↔ c.wc.nextMilli.millisecond = 0 ∨ c.wc.nextMilli.millisecond = 500))

/-- 20_memory R89 to R91, 30_encoding R130: one decoder cycle of the realisation is the strobes' DECEN and DECDIS and then, where
the decoder is ready and an edge waits, the EDGE of the oldest, with the counter value the synchroniser holds (that the strobes
come before the edge is the model's, log 20; that a change seen while the decoder is ready and masked is discarded is 60_exceptions
R305). -/
def Obligations.DecoderCycleRefines : Prop :=
  ∀ (c : Chip) (sig : Level) (set clr : Bool), c.handshake → c.decRun = true →
    ∃ t, runOps ((if set then [.decen] else []) ++ (if clr then [.decdis] else []) ++
        (if c.decoderReady then ((c.edgesSeen set clr).head?.map Instr.edge).toList else [])) (c.view (ungray c.graySync2)) = .next t ∧
      (c.clkDec sig set clr).view (ungray c.graySync2) = t
end

