-- ==== Sys2Proof/Laws/State.lean ====
section
/-! SUPPORT. One lemma for each field under each named update of the state: what it becomes, or that it stays. -/

namespace Sys2Proof.Machine

@[simp] theorem State.record_wc (s : State) (e : Event) : (s.record e).wc = s.wc := rfl
@[simp] theorem State.record_msc (s : State) (e : Event) : (s.record e).msc = s.msc := rfl
@[simp] theorem State.record_synced (s : State) (e : Event) : (s.record e).synced = s.synced := rfl
@[simp] theorem State.record_lsm (s : State) (e : Event) : (s.record e).lsm = s.lsm := rfl
@[simp] theorem State.record_decEn (s : State) (e : Event) : (s.record e).decEn = s.decEn := rfl
@[simp] theorem State.record_lvl (s : State) (e : Event) : (s.record e).lvl = s.lvl := rfl
@[simp] theorem State.record_lem (s : State) (e : Event) : (s.record e).lem = s.lem := rfl
@[simp] theorem State.record_cnt (s : State) (e : Event) : (s.record e).cnt = s.cnt := rfl
@[simp] theorem State.record_f (s : State) (e : Event) : (s.record e).f = s.f := rfl
@[simp] theorem State.record_pend (s : State) (e : Event) : (s.record e).pend = s.pend := rfl
@[simp] theorem State.record_input (s : State) (e : Event) : (s.record e).input = s.input := rfl
@[simp] theorem State.record_waiting (s : State) (e : Event) : (s.record e).waiting = s.waiting := rfl
@[simp] theorem State.record_turns (s : State) (e : Event) : (s.record e).turns = s.turns := rfl
@[simp] theorem State.record_issuer (s : State) (e : Event) : (s.record e).issuer = s.issuer := rfl
@[simp] theorem State.record_trace (s : State) (e : Event) : (s.record e).trace = e :: s.trace := rfl

@[simp] theorem State.setWc_wc (s : State) (w : Wallclock) : (s.setWc w).wc = w := rfl
@[simp] theorem State.setWc_msc (s : State) (w : Wallclock) : (s.setWc w).msc = s.msc := rfl
@[simp] theorem State.setWc_synced (s : State) (w : Wallclock) : (s.setWc w).synced = s.synced := rfl
@[simp] theorem State.setWc_lsm (s : State) (w : Wallclock) : (s.setWc w).lsm = s.lsm := rfl
@[simp] theorem State.setWc_decEn (s : State) (w : Wallclock) : (s.setWc w).decEn = s.decEn := rfl
@[simp] theorem State.setWc_lvl (s : State) (w : Wallclock) : (s.setWc w).lvl = s.lvl := rfl
@[simp] theorem State.setWc_lem (s : State) (w : Wallclock) : (s.setWc w).lem = s.lem := rfl
@[simp] theorem State.setWc_cnt (s : State) (w : Wallclock) : (s.setWc w).cnt = s.cnt := rfl
@[simp] theorem State.setWc_f (s : State) (w : Wallclock) : (s.setWc w).f = s.f := rfl
@[simp] theorem State.setWc_pend (s : State) (w : Wallclock) : (s.setWc w).pend = s.pend := rfl
@[simp] theorem State.setWc_input (s : State) (w : Wallclock) : (s.setWc w).input = s.input := rfl
@[simp] theorem State.setWc_waiting (s : State) (w : Wallclock) : (s.setWc w).waiting = s.waiting := rfl
@[simp] theorem State.setWc_turns (s : State) (w : Wallclock) : (s.setWc w).turns = s.turns := rfl
@[simp] theorem State.setWc_issuer (s : State) (w : Wallclock) : (s.setWc w).issuer = s.issuer := rfl
@[simp] theorem State.setWc_trace (s : State) (w : Wallclock) : (s.setWc w).trace = s.trace := rfl

@[simp] theorem State.setMsc_wc (s : State) (v : BitVec 16) : (s.setMsc v).wc = s.wc := rfl
@[simp] theorem State.setMsc_msc (s : State) (v : BitVec 16) : (s.setMsc v).msc = v := rfl
@[simp] theorem State.setMsc_synced (s : State) (v : BitVec 16) : (s.setMsc v).synced = s.synced := rfl
@[simp] theorem State.setMsc_lsm (s : State) (v : BitVec 16) : (s.setMsc v).lsm = s.lsm := rfl
@[simp] theorem State.setMsc_decEn (s : State) (v : BitVec 16) : (s.setMsc v).decEn = s.decEn := rfl
@[simp] theorem State.setMsc_lvl (s : State) (v : BitVec 16) : (s.setMsc v).lvl = s.lvl := rfl
@[simp] theorem State.setMsc_lem (s : State) (v : BitVec 16) : (s.setMsc v).lem = s.lem := rfl
@[simp] theorem State.setMsc_cnt (s : State) (v : BitVec 16) : (s.setMsc v).cnt = s.cnt := rfl
@[simp] theorem State.setMsc_f (s : State) (v : BitVec 16) : (s.setMsc v).f = s.f := rfl
@[simp] theorem State.setMsc_pend (s : State) (v : BitVec 16) : (s.setMsc v).pend = s.pend := rfl
@[simp] theorem State.setMsc_input (s : State) (v : BitVec 16) : (s.setMsc v).input = s.input := rfl
@[simp] theorem State.setMsc_waiting (s : State) (v : BitVec 16) : (s.setMsc v).waiting = s.waiting := rfl
@[simp] theorem State.setMsc_turns (s : State) (v : BitVec 16) : (s.setMsc v).turns = s.turns := rfl
@[simp] theorem State.setMsc_issuer (s : State) (v : BitVec 16) : (s.setMsc v).issuer = s.issuer := rfl
@[simp] theorem State.setMsc_trace (s : State) (v : BitVec 16) : (s.setMsc v).trace = s.trace := rfl

@[simp] theorem State.setSynced_wc (s : State) (b : Bool) : (s.setSynced b).wc = s.wc := rfl
@[simp] theorem State.setSynced_msc (s : State) (b : Bool) : (s.setSynced b).msc = s.msc := rfl
@[simp] theorem State.setSynced_synced (s : State) (b : Bool) : (s.setSynced b).synced = b := rfl
@[simp] theorem State.setSynced_lsm (s : State) (b : Bool) : (s.setSynced b).lsm = s.lsm := rfl
@[simp] theorem State.setSynced_decEn (s : State) (b : Bool) : (s.setSynced b).decEn = s.decEn := rfl
@[simp] theorem State.setSynced_lvl (s : State) (b : Bool) : (s.setSynced b).lvl = s.lvl := rfl
@[simp] theorem State.setSynced_lem (s : State) (b : Bool) : (s.setSynced b).lem = s.lem := rfl
@[simp] theorem State.setSynced_cnt (s : State) (b : Bool) : (s.setSynced b).cnt = s.cnt := rfl
@[simp] theorem State.setSynced_f (s : State) (b : Bool) : (s.setSynced b).f = s.f := rfl
@[simp] theorem State.setSynced_pend (s : State) (b : Bool) : (s.setSynced b).pend = s.pend := rfl
@[simp] theorem State.setSynced_input (s : State) (b : Bool) : (s.setSynced b).input = s.input := rfl
@[simp] theorem State.setSynced_waiting (s : State) (b : Bool) : (s.setSynced b).waiting = s.waiting := rfl
@[simp] theorem State.setSynced_turns (s : State) (b : Bool) : (s.setSynced b).turns = s.turns := rfl
@[simp] theorem State.setSynced_issuer (s : State) (b : Bool) : (s.setSynced b).issuer = s.issuer := rfl
@[simp] theorem State.setSynced_trace (s : State) (b : Bool) : (s.setSynced b).trace = s.trace := rfl

@[simp] theorem State.setLsm_wc (s : State) (m : BitVec 6) : (s.setLsm m).wc = s.wc := rfl
@[simp] theorem State.setLsm_msc (s : State) (m : BitVec 6) : (s.setLsm m).msc = s.msc := rfl
@[simp] theorem State.setLsm_synced (s : State) (m : BitVec 6) : (s.setLsm m).synced = s.synced := rfl
@[simp] theorem State.setLsm_lsm (s : State) (m : BitVec 6) : (s.setLsm m).lsm = m := rfl
@[simp] theorem State.setLsm_decEn (s : State) (m : BitVec 6) : (s.setLsm m).decEn = s.decEn := rfl
@[simp] theorem State.setLsm_lvl (s : State) (m : BitVec 6) : (s.setLsm m).lvl = s.lvl := rfl
@[simp] theorem State.setLsm_lem (s : State) (m : BitVec 6) : (s.setLsm m).lem = s.lem := rfl
@[simp] theorem State.setLsm_cnt (s : State) (m : BitVec 6) : (s.setLsm m).cnt = s.cnt := rfl
@[simp] theorem State.setLsm_f (s : State) (m : BitVec 6) : (s.setLsm m).f = s.f := rfl
@[simp] theorem State.setLsm_pend (s : State) (m : BitVec 6) : (s.setLsm m).pend = s.pend := rfl
@[simp] theorem State.setLsm_input (s : State) (m : BitVec 6) : (s.setLsm m).input = s.input := rfl
@[simp] theorem State.setLsm_waiting (s : State) (m : BitVec 6) : (s.setLsm m).waiting = s.waiting := rfl
@[simp] theorem State.setLsm_turns (s : State) (m : BitVec 6) : (s.setLsm m).turns = s.turns := rfl
@[simp] theorem State.setLsm_issuer (s : State) (m : BitVec 6) : (s.setLsm m).issuer = s.issuer := rfl
@[simp] theorem State.setLsm_trace (s : State) (m : BitVec 6) : (s.setLsm m).trace = s.trace := rfl

@[simp] theorem State.setDecEn_wc (s : State) (b : Bool) : (s.setDecEn b).wc = s.wc := rfl
@[simp] theorem State.setDecEn_msc (s : State) (b : Bool) : (s.setDecEn b).msc = s.msc := rfl
@[simp] theorem State.setDecEn_synced (s : State) (b : Bool) : (s.setDecEn b).synced = s.synced := rfl
@[simp] theorem State.setDecEn_lsm (s : State) (b : Bool) : (s.setDecEn b).lsm = s.lsm := rfl
@[simp] theorem State.setDecEn_decEn (s : State) (b : Bool) : (s.setDecEn b).decEn = b := rfl
@[simp] theorem State.setDecEn_lvl (s : State) (b : Bool) : (s.setDecEn b).lvl = s.lvl := rfl
@[simp] theorem State.setDecEn_lem (s : State) (b : Bool) : (s.setDecEn b).lem = s.lem := rfl
@[simp] theorem State.setDecEn_cnt (s : State) (b : Bool) : (s.setDecEn b).cnt = s.cnt := rfl
@[simp] theorem State.setDecEn_f (s : State) (b : Bool) : (s.setDecEn b).f = s.f := rfl
@[simp] theorem State.setDecEn_pend (s : State) (b : Bool) : (s.setDecEn b).pend = s.pend := rfl
@[simp] theorem State.setDecEn_input (s : State) (b : Bool) : (s.setDecEn b).input = s.input := rfl
@[simp] theorem State.setDecEn_waiting (s : State) (b : Bool) : (s.setDecEn b).waiting = s.waiting := rfl
@[simp] theorem State.setDecEn_turns (s : State) (b : Bool) : (s.setDecEn b).turns = s.turns := rfl
@[simp] theorem State.setDecEn_issuer (s : State) (b : Bool) : (s.setDecEn b).issuer = s.issuer := rfl
@[simp] theorem State.setDecEn_trace (s : State) (b : Bool) : (s.setDecEn b).trace = s.trace := rfl

@[simp] theorem State.setPend_wc (s : State) (p : Option Wallclock) : (s.setPend p).wc = s.wc := rfl
@[simp] theorem State.setPend_msc (s : State) (p : Option Wallclock) : (s.setPend p).msc = s.msc := rfl
@[simp] theorem State.setPend_synced (s : State) (p : Option Wallclock) : (s.setPend p).synced = s.synced := rfl
@[simp] theorem State.setPend_lsm (s : State) (p : Option Wallclock) : (s.setPend p).lsm = s.lsm := rfl
@[simp] theorem State.setPend_decEn (s : State) (p : Option Wallclock) : (s.setPend p).decEn = s.decEn := rfl
@[simp] theorem State.setPend_lvl (s : State) (p : Option Wallclock) : (s.setPend p).lvl = s.lvl := rfl
@[simp] theorem State.setPend_lem (s : State) (p : Option Wallclock) : (s.setPend p).lem = s.lem := rfl
@[simp] theorem State.setPend_cnt (s : State) (p : Option Wallclock) : (s.setPend p).cnt = s.cnt := rfl
@[simp] theorem State.setPend_f (s : State) (p : Option Wallclock) : (s.setPend p).f = s.f := rfl
@[simp] theorem State.setPend_pend (s : State) (p : Option Wallclock) : (s.setPend p).pend = p := rfl
@[simp] theorem State.setPend_input (s : State) (p : Option Wallclock) : (s.setPend p).input = s.input := rfl
@[simp] theorem State.setPend_waiting (s : State) (p : Option Wallclock) : (s.setPend p).waiting = s.waiting := rfl
@[simp] theorem State.setPend_turns (s : State) (p : Option Wallclock) : (s.setPend p).turns = s.turns := rfl
@[simp] theorem State.setPend_issuer (s : State) (p : Option Wallclock) : (s.setPend p).issuer = s.issuer := rfl
@[simp] theorem State.setPend_trace (s : State) (p : Option Wallclock) : (s.setPend p).trace = s.trace := rfl

@[simp] theorem State.recordEdge_wc (s : State) (l : Level) : (s.recordEdge l).wc = s.wc := rfl
@[simp] theorem State.recordEdge_msc (s : State) (l : Level) : (s.recordEdge l).msc = s.msc := rfl
@[simp] theorem State.recordEdge_synced (s : State) (l : Level) : (s.recordEdge l).synced = s.synced := rfl
@[simp] theorem State.recordEdge_lsm (s : State) (l : Level) : (s.recordEdge l).lsm = s.lsm := rfl
@[simp] theorem State.recordEdge_decEn (s : State) (l : Level) : (s.recordEdge l).decEn = s.decEn := rfl
@[simp] theorem State.recordEdge_lvl (s : State) (l : Level) : (s.recordEdge l).lvl = l := rfl
@[simp] theorem State.recordEdge_lem (s : State) (l : Level) : (s.recordEdge l).lem = s.msc := rfl
@[simp] theorem State.recordEdge_cnt (s : State) (l : Level) : (s.recordEdge l).cnt = s.cnt := rfl
@[simp] theorem State.recordEdge_f (s : State) (l : Level) : (s.recordEdge l).f = s.f := rfl
@[simp] theorem State.recordEdge_pend (s : State) (l : Level) : (s.recordEdge l).pend = s.pend := rfl
@[simp] theorem State.recordEdge_input (s : State) (l : Level) : (s.recordEdge l).input = s.input := rfl
@[simp] theorem State.recordEdge_waiting (s : State) (l : Level) : (s.recordEdge l).waiting = s.waiting := rfl
@[simp] theorem State.recordEdge_turns (s : State) (l : Level) : (s.recordEdge l).turns = s.turns := rfl
@[simp] theorem State.recordEdge_issuer (s : State) (l : Level) : (s.recordEdge l).issuer = s.issuer := rfl
@[simp] theorem State.recordEdge_trace (s : State) (l : Level) : (s.recordEdge l).trace = s.trace := rfl

@[simp] theorem State.clearFrame_wc (s : State) : (s.clearFrame).wc = s.wc := rfl
@[simp] theorem State.clearFrame_msc (s : State) : (s.clearFrame).msc = s.msc := rfl
@[simp] theorem State.clearFrame_synced (s : State) : (s.clearFrame).synced = s.synced := rfl
@[simp] theorem State.clearFrame_lsm (s : State) : (s.clearFrame).lsm = s.lsm := rfl
@[simp] theorem State.clearFrame_decEn (s : State) : (s.clearFrame).decEn = s.decEn := rfl
@[simp] theorem State.clearFrame_lvl (s : State) : (s.clearFrame).lvl = s.lvl := rfl
@[simp] theorem State.clearFrame_lem (s : State) : (s.clearFrame).lem = s.lem := rfl
@[simp] theorem State.clearFrame_cnt (s : State) : (s.clearFrame).cnt = 0 := rfl
@[simp] theorem State.clearFrame_f (s : State) : (s.clearFrame).f = 0 := rfl
@[simp] theorem State.clearFrame_pend (s : State) : (s.clearFrame).pend = s.pend := rfl
@[simp] theorem State.clearFrame_input (s : State) : (s.clearFrame).input = s.input := rfl
@[simp] theorem State.clearFrame_waiting (s : State) : (s.clearFrame).waiting = s.waiting := rfl
@[simp] theorem State.clearFrame_turns (s : State) : (s.clearFrame).turns = s.turns := rfl
@[simp] theorem State.clearFrame_issuer (s : State) : (s.clearFrame).issuer = s.issuer := rfl
@[simp] theorem State.clearFrame_trace (s : State) : (s.clearFrame).trace = s.trace := rfl

@[simp] theorem State.appendBit_wc (s : State) (b : Bool) : (s.appendBit b).wc = s.wc := rfl
@[simp] theorem State.appendBit_msc (s : State) (b : Bool) : (s.appendBit b).msc = s.msc := rfl
@[simp] theorem State.appendBit_synced (s : State) (b : Bool) : (s.appendBit b).synced = s.synced := rfl
@[simp] theorem State.appendBit_lsm (s : State) (b : Bool) : (s.appendBit b).lsm = s.lsm := rfl
@[simp] theorem State.appendBit_decEn (s : State) (b : Bool) : (s.appendBit b).decEn = s.decEn := rfl
@[simp] theorem State.appendBit_lvl (s : State) (b : Bool) : (s.appendBit b).lvl = s.lvl := rfl
@[simp] theorem State.appendBit_lem (s : State) (b : Bool) : (s.appendBit b).lem = s.lem := rfl
@[simp] theorem State.appendBit_cnt (s : State) (b : Bool) : (s.appendBit b).cnt = s.cnt + 1 := rfl
@[simp] theorem State.appendBit_f (s : State) (b : Bool) :
    (s.appendBit b).f = storeBit s.f s.cnt b := rfl
@[simp] theorem State.appendBit_pend (s : State) (b : Bool) : (s.appendBit b).pend = s.pend := rfl
@[simp] theorem State.appendBit_input (s : State) (b : Bool) : (s.appendBit b).input = s.input := rfl
@[simp] theorem State.appendBit_waiting (s : State) (b : Bool) : (s.appendBit b).waiting = s.waiting := rfl
@[simp] theorem State.appendBit_turns (s : State) (b : Bool) : (s.appendBit b).turns = s.turns := rfl
@[simp] theorem State.appendBit_issuer (s : State) (b : Bool) : (s.appendBit b).issuer = s.issuer := rfl
@[simp] theorem State.appendBit_trace (s : State) (b : Bool) : (s.appendBit b).trace = s.trace := rfl

@[simp] theorem State.waitEdge_wc (s : State) (l : Level) : (s.waitEdge l).wc = s.wc := rfl
@[simp] theorem State.waitEdge_msc (s : State) (l : Level) : (s.waitEdge l).msc = s.msc := rfl
@[simp] theorem State.waitEdge_synced (s : State) (l : Level) : (s.waitEdge l).synced = s.synced := rfl
@[simp] theorem State.waitEdge_lsm (s : State) (l : Level) : (s.waitEdge l).lsm = s.lsm := rfl
@[simp] theorem State.waitEdge_decEn (s : State) (l : Level) : (s.waitEdge l).decEn = s.decEn := rfl
@[simp] theorem State.waitEdge_lvl (s : State) (l : Level) : (s.waitEdge l).lvl = s.lvl := rfl
@[simp] theorem State.waitEdge_lem (s : State) (l : Level) : (s.waitEdge l).lem = s.lem := rfl
@[simp] theorem State.waitEdge_cnt (s : State) (l : Level) : (s.waitEdge l).cnt = s.cnt := rfl
@[simp] theorem State.waitEdge_f (s : State) (l : Level) : (s.waitEdge l).f = s.f := rfl
@[simp] theorem State.waitEdge_pend (s : State) (l : Level) : (s.waitEdge l).pend = s.pend := rfl
@[simp] theorem State.waitEdge_input (s : State) (l : Level) : (s.waitEdge l).input = s.input := rfl
@[simp] theorem State.waitEdge_waiting (s : State) (l : Level) : (s.waitEdge l).waiting = s.waiting ++ [l] := rfl
@[simp] theorem State.waitEdge_turns (s : State) (l : Level) : (s.waitEdge l).turns = s.turns := rfl
@[simp] theorem State.waitEdge_issuer (s : State) (l : Level) : (s.waitEdge l).issuer = s.issuer := rfl
@[simp] theorem State.waitEdge_trace (s : State) (l : Level) : (s.waitEdge l).trace = s.trace := rfl

@[simp] theorem State.applyHandoff_wc (s : State) (w : Wallclock) : (s.applyHandoff w).wc = w := rfl
@[simp] theorem State.applyHandoff_msc (s : State) (w : Wallclock) : (s.applyHandoff w).msc = s.msc := rfl
@[simp] theorem State.applyHandoff_synced (s : State) (w : Wallclock) : (s.applyHandoff w).synced = true := rfl
@[simp] theorem State.applyHandoff_lsm (s : State) (w : Wallclock) : (s.applyHandoff w).lsm = w.minute := rfl
@[simp] theorem State.applyHandoff_decEn (s : State) (w : Wallclock) : (s.applyHandoff w).decEn = s.decEn := rfl
@[simp] theorem State.applyHandoff_lvl (s : State) (w : Wallclock) : (s.applyHandoff w).lvl = s.lvl := rfl
@[simp] theorem State.applyHandoff_lem (s : State) (w : Wallclock) : (s.applyHandoff w).lem = s.lem := rfl
@[simp] theorem State.applyHandoff_cnt (s : State) (w : Wallclock) : (s.applyHandoff w).cnt = s.cnt := rfl
@[simp] theorem State.applyHandoff_f (s : State) (w : Wallclock) : (s.applyHandoff w).f = s.f := rfl
@[simp] theorem State.applyHandoff_pend (s : State) (w : Wallclock) : (s.applyHandoff w).pend = none := rfl
@[simp] theorem State.applyHandoff_input (s : State) (w : Wallclock) : (s.applyHandoff w).input = s.input := rfl
@[simp] theorem State.applyHandoff_waiting (s : State) (w : Wallclock) : (s.applyHandoff w).waiting = s.waiting := rfl
@[simp] theorem State.applyHandoff_turns (s : State) (w : Wallclock) : (s.applyHandoff w).turns = s.turns := rfl
@[simp] theorem State.applyHandoff_issuer (s : State) (w : Wallclock) : (s.applyHandoff w).issuer = s.issuer := rfl
@[simp] theorem State.applyHandoff_trace (s : State) (w : Wallclock) : (s.applyHandoff w).trace = s.trace := rfl

@[simp] theorem State.resetRegisters_wc (s : State) : (s.resetRegisters).wc = Wallclock.epoch := rfl
@[simp] theorem State.resetRegisters_msc (s : State) : (s.resetRegisters).msc = 0 := rfl
@[simp] theorem State.resetRegisters_synced (s : State) : (s.resetRegisters).synced = false := rfl
@[simp] theorem State.resetRegisters_lsm (s : State) : (s.resetRegisters).lsm = 0 := rfl
@[simp] theorem State.resetRegisters_decEn (s : State) : (s.resetRegisters).decEn = true := rfl
@[simp] theorem State.resetRegisters_lvl (s : State) : (s.resetRegisters).lvl = .low := rfl
@[simp] theorem State.resetRegisters_lem (s : State) : (s.resetRegisters).lem = 0 := rfl
@[simp] theorem State.resetRegisters_cnt (s : State) : (s.resetRegisters).cnt = 0 := rfl
@[simp] theorem State.resetRegisters_f (s : State) : (s.resetRegisters).f = 0 := rfl
@[simp] theorem State.resetRegisters_pend (s : State) : (s.resetRegisters).pend = none := rfl
@[simp] theorem State.resetRegisters_input (s : State) : (s.resetRegisters).input = s.input := rfl
@[simp] theorem State.resetRegisters_waiting (s : State) : (s.resetRegisters).waiting = s.waiting := rfl
@[simp] theorem State.resetRegisters_turns (s : State) : (s.resetRegisters).turns = s.turns := rfl
@[simp] theorem State.resetRegisters_issuer (s : State) : (s.resetRegisters).issuer = s.issuer := rfl
@[simp] theorem State.resetRegisters_trace (s : State) : (s.resetRegisters).trace = s.trace := rfl

@[simp] theorem State.emitRefreshAt_wc (s : State) (m : BitVec 10) : (s.emitRefreshAt m).wc = s.wc := by
  unfold State.emitRefreshAt; split <;> rfl
@[simp] theorem State.emitRefreshAt_msc (s : State) (m : BitVec 10) : (s.emitRefreshAt m).msc = s.msc := by
  unfold State.emitRefreshAt; split <;> rfl
@[simp] theorem State.emitRefreshAt_synced (s : State) (m : BitVec 10) : (s.emitRefreshAt m).synced = s.synced := by
  unfold State.emitRefreshAt; split <;> rfl
@[simp] theorem State.emitRefreshAt_lsm (s : State) (m : BitVec 10) : (s.emitRefreshAt m).lsm = s.lsm := by
  unfold State.emitRefreshAt; split <;> rfl
@[simp] theorem State.emitRefreshAt_decEn (s : State) (m : BitVec 10) : (s.emitRefreshAt m).decEn = s.decEn := by
  unfold State.emitRefreshAt; split <;> rfl
@[simp] theorem State.emitRefreshAt_lvl (s : State) (m : BitVec 10) : (s.emitRefreshAt m).lvl = s.lvl := by
  unfold State.emitRefreshAt; split <;> rfl
@[simp] theorem State.emitRefreshAt_lem (s : State) (m : BitVec 10) : (s.emitRefreshAt m).lem = s.lem := by
  unfold State.emitRefreshAt; split <;> rfl
@[simp] theorem State.emitRefreshAt_cnt (s : State) (m : BitVec 10) : (s.emitRefreshAt m).cnt = s.cnt := by
  unfold State.emitRefreshAt; split <;> rfl
@[simp] theorem State.emitRefreshAt_f (s : State) (m : BitVec 10) : (s.emitRefreshAt m).f = s.f := by
  unfold State.emitRefreshAt; split <;> rfl
@[simp] theorem State.emitRefreshAt_pend (s : State) (m : BitVec 10) : (s.emitRefreshAt m).pend = s.pend := by
  unfold State.emitRefreshAt; split <;> rfl
@[simp] theorem State.emitRefreshAt_input (s : State) (m : BitVec 10) : (s.emitRefreshAt m).input = s.input := by
  unfold State.emitRefreshAt; split <;> rfl
@[simp] theorem State.emitRefreshAt_waiting (s : State) (m : BitVec 10) : (s.emitRefreshAt m).waiting = s.waiting := by
  unfold State.emitRefreshAt; split <;> rfl
@[simp] theorem State.emitRefreshAt_turns (s : State) (m : BitVec 10) : (s.emitRefreshAt m).turns = s.turns := by
  unfold State.emitRefreshAt; split <;> rfl
@[simp] theorem State.emitRefreshAt_issuer (s : State) (m : BitVec 10) : (s.emitRefreshAt m).issuer = s.issuer := by
  unfold State.emitRefreshAt; split <;> rfl
@[simp] theorem State.emitRefreshAt_trace (s : State) (m : BitVec 10) :
    (s.emitRefreshAt m).trace = if refreshInstant m then .refresh :: s.trace else s.trace := by
  unfold State.emitRefreshAt; split <;> rfl

@[simp] theorem State.tick_wc (s : State) : s.tick.wc = s.wc.nextMilli := by simp [State.tick]
@[simp] theorem State.tick_msc (s : State) : s.tick.msc = s.msc + 1 := by simp [State.tick]
@[simp] theorem State.tick_synced (s : State) :
    s.tick.synced = syncedAfterTick s.synced s.wc.minuteRoll s.wc.nextMilli.minute s.lsm := by
  simp [State.tick]
@[simp] theorem State.tick_lsm (s : State) : s.tick.lsm = s.lsm := by simp [State.tick]
@[simp] theorem State.tick_decEn (s : State) : s.tick.decEn = s.decEn := by simp [State.tick]
@[simp] theorem State.tick_lvl (s : State) : s.tick.lvl = s.lvl := by simp [State.tick]
@[simp] theorem State.tick_lem (s : State) : s.tick.lem = s.lem := by simp [State.tick]
@[simp] theorem State.tick_cnt (s : State) : s.tick.cnt = s.cnt := by simp [State.tick]
@[simp] theorem State.tick_f (s : State) : s.tick.f = s.f := by simp [State.tick]
@[simp] theorem State.tick_pend (s : State) : s.tick.pend = s.pend := by simp [State.tick]
@[simp] theorem State.tick_input (s : State) : s.tick.input = s.input := by simp [State.tick]
@[simp] theorem State.tick_waiting (s : State) : s.tick.waiting = s.waiting := by simp [State.tick]
@[simp] theorem State.tick_turns (s : State) : s.tick.turns = s.turns := by simp [State.tick]
@[simp] theorem State.tick_issuer (s : State) : s.tick.issuer = s.issuer := by simp [State.tick]
@[simp] theorem State.tick_trace (s : State) :
    s.tick.trace = if refreshInstant s.wc.nextMilli.millisecond then .refresh :: s.trace else s.trace := by
  simp [State.tick]

end Sys2Proof.Machine
end

