-- ==== Sys2Proof/Laws/Ops.lean ====
section
/-! SUPPORT. What each shared operation can do, said once: proofs cite these and unfold no operation. -/

namespace Sys2Proof.Machine

/-- A frame write changes its own position and no other (42_decoder R211). -/
theorem setFrameBit_getLsbD (f : BitVec 59) (i j : Nat) (b : Bool) (hj : j < 59) :
    (setFrameBit f i b).getLsbD j = if j = i then b else f.getLsbD j := by
  unfold setFrameBit
  by_cases h : i = j
  · subst h; cases b <;> simp [hj]
  · have h' : ¬ j = i := fun e => h e.symm
    cases b <;> simp [h', hj]

/-- What a frame holds after a bit is accepted (42_decoder R211). -/
theorem storeBit_getLsbD (f : BitVec 59) (cnt : BitVec 6) (b : Bool) (j : Nat) (hj : j < 59) :
    (storeBit f cnt b).getLsbD j = if j = cnt.toNat then b else f.getLsbD j := by
  unfold storeBit
  split
  · exact setFrameBit_getLsbD f cnt.toNat j b hj
  · rename_i h; rw [if_neg]; simp [frameBits] at h; omega

/-- REFRESH is at 0 and at 500 and nowhere else (41_timebase R165). -/
theorem refreshInstant_iff (m : BitVec 10) : refreshInstant m = true ↔ m = 0 ∨ m = 500 := by
  simp only [refreshInstant, refreshAtMs, List.contains_iff_mem, List.mem_cons, List.not_mem_nil, or_false]
  constructor
  · rintro (h | h)
    · exact .inl (BitVec.eq_of_toNat_eq h)
    · exact .inr (BitVec.eq_of_toNat_eq h)
  · rintro (rfl | rfl) <;> simp

/-- When a presented EDGE is taken at once (20_memory R72, R74, 60_exceptions R305). -/
theorem State.edgeEnabled_iff (s : State) :
    s.edgeEnabled = true ↔ s.pend = none ∧ (s.waiting = [] ∨ s.decEn = false) := by
  simp [State.edgeEnabled]

/-- Everything one EDGE step on the registers can do (42_decoder R200). -/
theorem State.handleEdge_cases (s : State) (l : Level) :
    ((s.decEn = false ∨ l = s.lvl) ∧ s.handleEdge l = s) ∨
    (s.decEn = true ∧ l ≠ s.lvl ∧ l = .high ∧ classify .high s.interval ≠ .marker ∧ s.handleEdge l = s.recordEdge .high) ∨
    (s.decEn = true ∧ l ≠ s.lvl ∧ l = .high ∧ classify .high s.interval = .marker ∧ frameAccepted s.cnt s.f = true ∧
      s.handleEdge l = ((s.recordEdge .high).setPend (some (syncVal (frameDecode s.f)))).clearFrame) ∨
    (s.decEn = true ∧ l ≠ s.lvl ∧ l = .high ∧ classify .high s.interval = .marker ∧ frameAccepted s.cnt s.f = false ∧
      s.handleEdge l = (s.recordEdge .high).clearFrame) ∨
    (s.decEn = true ∧ l ≠ s.lvl ∧ l = .low ∧ (cntLimit < s.cnt.toNat ∨ symbolBit (classify .low s.interval) = Option.none) ∧
      s.handleEdge l = s.recordEdge .low) ∨
    (s.decEn = true ∧ l ≠ s.lvl ∧ l = .low ∧ s.cnt.toNat ≤ cntLimit ∧
      ∃ b, symbolBit (classify .low s.interval) = some b ∧ s.handleEdge l = (s.recordEdge .low).appendBit b) := by
  by_cases hd : s.decEn = false
  · exact .inl ⟨.inl hd, by simp [State.handleEdge, hd]⟩
  by_cases hl : l = s.lvl
  · exact .inl ⟨.inr hl, by simp [State.handleEdge, hl]⟩
  have hd' : s.decEn = true := by simpa using hd
  cases l with
  | high =>
    by_cases hm : classify .high s.interval = .marker
    · by_cases ha : frameAccepted s.cnt s.f = true
      · exact .inr <| .inr <| .inl ⟨hd', hl, rfl, hm, ha, by
          simp [State.handleEdge, hd', hl, State.highEdge, hm, State.markerEdge, ha]⟩
      · have ha' : frameAccepted s.cnt s.f = false := by simpa using ha
        exact .inr <| .inr <| .inr <| .inl ⟨hd', hl, rfl, hm, ha', by
          simp [State.handleEdge, hd', hl, State.highEdge, hm, State.markerEdge, ha']⟩
    · exact .inr <| .inl ⟨hd', hl, rfl, hm, by simp [State.handleEdge, hd', hl, State.highEdge, hm]⟩
  | low =>
    by_cases hc : cntLimit < s.cnt.toNat
    · exact .inr <| .inr <| .inr <| .inr <| .inl ⟨hd', hl, rfl, .inl hc, by
        simp [State.handleEdge, hd', hl, State.lowEdge, hc]⟩
    · cases hb : symbolBit (classify .low s.interval) with
      | none => exact .inr <| .inr <| .inr <| .inr <| .inl ⟨hd', hl, rfl, .inr rfl, by
          simp [State.handleEdge, hd', hl, State.lowEdge, hc, hb]⟩
      | some b => exact .inr <| .inr <| .inr <| .inr <| .inr ⟨hd', hl, rfl, Nat.le_of_not_lt hc, b, rfl, by
          simp [State.handleEdge, hd', hl, State.lowEdge, hc, hb]⟩

/-- One EDGE step on the registers neither reads nor writes what the environment presents: it does the same whatever items, waiting
edges, choices and issuer the state holds. -/
theorem State.handleEdge_environment (s : State) (l : Level) (input : List Item) (waiting : List Level) (turns : List Bool)
    (issuer : Agent) :
    ({ s with input := input, waiting := waiting, turns := turns, issuer := issuer } : State).handleEdge l =
      { s.handleEdge l with input := input, waiting := waiting, turns := turns, issuer := issuer } := by
  by_cases hd : s.decEn = false
  · simp [State.handleEdge, hd]
  by_cases hl : l = s.lvl
  · simp [State.handleEdge, hl]
  cases l with
  | high =>
    simp only [State.handleEdge, hd, hl, State.highEdge, State.markerEdge, State.recordEdge, State.interval]
    split_ifs <;> first | rfl | contradiction
  | low =>
    by_cases hc : cntLimit < s.cnt.toNat
    · simp [State.handleEdge, hd, hl, State.lowEdge, State.recordEdge, hc]
    · simp only [State.handleEdge, hd, hl, State.lowEdge, State.recordEdge, State.interval, hc, if_false]
      cases symbolBit (classify .low (s.msc - s.lem)) <;> rfl

/-- Everything an operation that answers a next state can have done, one case for each kind of effect. -/
theorem exec_next_cases {i : Instr} {s t : State} (h : exec i s = .next t) :
    (i = .tick ∧ t = s.tick) ∨
    (∃ l, i = .edge l ∧ s.edgeEnabled = true ∧ t = s.handleEdge l) ∨
    (∃ l, i = .edge l ∧ s.edgeEnabled = false ∧ t = s.waitEdge l) ∨
    ((i = .getms ∨ i = .snap ∨ i = .syncq) ∧ ∃ e, e ≠ .refresh ∧ t = s.record e) ∨
    (∃ x w, i = .handoff x ∧ s.pend = some w ∧ t = s.applyHandoff w) ∨
    (∃ b, i = (if b then .decen else .decdis) ∧ t = s.setDecEn b) ∨
    (i = .reset ∧ t = s.resetRegisters) := by
  cases i with
  | tick => simp [exec, execTick] at h; exact .inl ⟨rfl, h.symm⟩
  | edge l =>
    simp only [exec, execEdge] at h
    split at h <;> rename_i he
    · simp at h; exact .inr <| .inl ⟨l, rfl, he, h.symm⟩
    · simp at h; exact .inr <| .inr <| .inl ⟨l, rfl, by simpa using he, h.symm⟩
  | getms => simp [exec, execGetms] at h; exact .inr <| .inr <| .inr <| .inl ⟨.inl rfl, _, by simp, h.symm⟩
  | snap => simp [exec, execSnap] at h; exact .inr <| .inr <| .inr <| .inl ⟨.inr (.inl rfl), _, by simp, h.symm⟩
  | syncq => simp [exec, execSyncq] at h; exact .inr <| .inr <| .inr <| .inl ⟨.inr (.inr rfl), _, by simp, h.symm⟩
  | handoff x =>
    simp only [exec, execHandoff] at h
    split at h
    · simp at h
    · rename_i w hw; simp at h; exact .inr <| .inr <| .inr <| .inr <| .inl ⟨x, w, rfl, hw, h.symm⟩
  | decen => simp [exec, execDecen] at h; exact .inr <| .inr <| .inr <| .inr <| .inr <| .inl ⟨true, rfl, h.symm⟩
  | decdis => simp [exec, execDecdis] at h; exact .inr <| .inr <| .inr <| .inr <| .inr <| .inl ⟨false, rfl, h.symm⟩
  | reset => simp [exec, execReset] at h; exact .inr <| .inr <| .inr <| .inr <| .inr <| .inr ⟨rfl, h.symm⟩

/-- What choosing the next step can do: every register, and the trace, stays. -/
theorem State.nextTurn_cases (s : State) :
    (s.nextTurn = .idle ∧ s.input = []) ∨
    (∃ l ls ts, s.waiting = l :: ls ∧ s.pend = none ∧
      s.nextTurn = .waitingEdge l { s with waiting := ls, turns := ts, issuer := .edgeSource }) ∨
    (∃ q rest ts, s.input = q :: rest ∧
      s.nextTurn = .presented q { s with input := rest, turns := ts, issuer := q.agent }) := by
  obtain ⟨wc, msc, synced, lsm, decEn, lvl, lem, cnt, f, pend, input, waiting, turns, issuer, trace⟩ := s
  rcases pend with _ | w <;> rcases waiting with _ | ⟨l, ls⟩ <;> rcases input with _ | ⟨q, rest⟩ <;>
    first
    | exact .inl ⟨rfl, rfl⟩
    | exact .inr (.inr ⟨q, rest, turns, rfl, rfl⟩)
    | skip
  · exact .inr (.inl ⟨l, ls, turns, rfl, rfl, rfl⟩)
  · rcases turns with _ | ⟨_ | _, ts⟩
    · exact .inr (.inl ⟨l, ls, [], rfl, rfl, rfl⟩)
    · exact .inr (.inl ⟨l, ls, ts, rfl, rfl, rfl⟩)
    · exact .inr (.inr ⟨q, rest, ts, rfl, rfl⟩)

/-- Everything a step that answers a next state can have done. -/
theorem step_next_cases {s t : State} (h : step s = .next t) :
    t = s ∨
    (∃ l ls ts, s.waiting = l :: ls ∧ s.pend = none ∧
      t = { s with waiting := ls, turns := ts, issuer := .edgeSource }.handleEdge l) ∨
    (∃ q rest ts i, s.input = q :: rest ∧ readItem q = .ok i ∧
      exec i { s with input := rest, turns := ts, issuer := q.agent } = .next t) := by
  rcases s.nextTurn_cases with ⟨hn, -⟩ | ⟨l, ls, ts, hw, hp, hn⟩ | ⟨q, rest, ts, hi, hn⟩
  · simp [step, hn] at h; exact .inl h.symm
  · simp [step, hn] at h; exact .inr <| .inl ⟨l, ls, ts, hw, hp, h.symm⟩
  · simp only [step, hn] at h
    cases hr : readItem q with
    | error r => rw [hr] at h; simp at h
    | ok i => rw [hr] at h; exact .inr <| .inr ⟨q, rest, ts, i, hi, hr, h⟩

/-- An item is read as an operation exactly where its bytes spell that operation and its agent may issue it (30_encoding R107). -/
theorem readItem_ok_iff {q : Item} {i : Instr} :
    readItem q = .ok i ↔ decode q.bytes = .ok (i, []) ∧ mayIssue q.agent i = true := by
  unfold readItem
  split
  all_goals rename_i h
  all_goals simp only [h]
  · simp
  · simp
  · simp
  · simp
  · rename_i j
    by_cases hm : mayIssue q.agent j = true <;> simp only [hm, if_true, Except.ok.injEq, Prod.mk.injEq, and_true]
    · exact ⟨fun e => ⟨e, e ▸ hm⟩, fun e => e.1⟩
    · simp only [Bool.false_eq_true, if_false, reduceCtorEq, false_iff, not_and]
      rintro rfl; exact hm

/-- Everything the refusal of an item can be (30_encoding R112). -/
theorem readItem_error_cases {q : Item} {r : Refusal} (h : readItem q = .error r) :
    (∃ op, decode q.bytes = .error (.reservedWord op) ∧ r = .reservedWord op) ∨
    ((decode q.bytes = .error .noByte ∨ decode q.bytes = .error .operandMissing ∨
      ∃ i b rest, decode q.bytes = .ok (i, b :: rest)) ∧ r = .malformedItem) ∨
    (∃ i, decode q.bytes = .ok (i, []) ∧ mayIssue q.agent i = false ∧ r = .notItsAgent q.agent) := by
  unfold readItem at h
  split at h <;> rename_i hd
  · exact .inl ⟨_, hd, by simpa using h.symm⟩
  · exact .inr (.inl ⟨.inl hd, by simpa using h.symm⟩)
  · exact .inr (.inl ⟨.inr (.inl hd), by simpa using h.symm⟩)
  · exact .inr (.inl ⟨.inr (.inr ⟨_, _, _, hd⟩), by simpa using h.symm⟩)
  · rename_i j
    by_cases hm : mayIssue q.agent j = true
    · simp [hm] at h
    · exact .inr (.inr ⟨j, hd, by simpa using hm, by simpa [hm] using h.symm⟩)

/-- An item whose agent may not issue its operation is refused (30_encoding R107). -/
theorem readItem_foreign {q : Item} {i : Instr} (hd : decode q.bytes = .ok (i, [])) (hm : mayIssue q.agent i = false) :
    readItem q = .error (.notItsAgent q.agent) := by
  cases hr : readItem q with
  | ok j => rw [readItem_ok_iff, hd] at hr; obtain ⟨hj, hj'⟩ := hr; simp at hj; subst hj; simp [hm] at hj'
  | error r =>
    rcases readItem_error_cases hr with ⟨op, h, -⟩ | ⟨h | h | ⟨_, _, _, h⟩, -⟩ | ⟨_, _, _, rfl⟩ <;> first | rfl | simp [hd] at h

/-- A presented item is the very next that a step reads (used by `State.withFetchWord`). -/
theorem State.present_nextTurn (q : Item) (s : State) :
    (s.present q).nextTurn = .presented q { s with issuer := q.agent } := by
  obtain ⟨wc, msc, synced, lsm, decEn, lvl, lem, cnt, f, pend, input, waiting, turns, issuer, trace⟩ := s
  rcases pend with _ | w <;> rcases waiting with _ | ⟨l, ls⟩ <;> rfl

/-- The step after `withFetchWord` reads exactly the item of the word and leaves all else as it was. -/
theorem step_withFetchWord (s : State) (nbits w : Nat) :
    step (s.withFetchWord nbits w) =
      match readItem (tableIssue nbits w) with
      | .error r => .refused r
      | .ok i => exec i { s with issuer := (tableIssue nbits w).agent } := by
  simp only [step, State.withFetchWord, State.present_nextTurn]
  all_goals cases readItem (tableIssue nbits w) <;> rfl

end Sys2Proof.Machine
end

