-- ==== Sys2Proof/Laws/PerInstr.lean ====
section
/-! SUPPORT. The family `ItemForm`, one lemma for each constructor of Instr: the bytes of an operation are as many as its first byte
says (30_encoding R106), and that byte has its reserved bits zero (R102). -/

namespace Sys2Proof.Laws

/-- The form of an operation's bytes (30_encoding R102, R106). -/
def ItemForm.Statement (i : Instr) : Prop :=
  ∃ op rest, encode i = op :: rest ∧ (encode i).length = itemLength op ∧ rsvOf op = 0

theorem ItemForm.tick : ItemForm.Statement .tick := ⟨_, _, rfl, by decide, by decide⟩

theorem ItemForm.edge (level : Level) : ItemForm.Statement (.edge level) :=
  ⟨_, _, rfl, by cases level <;> decide, by cases level <;> decide⟩

theorem ItemForm.getms : ItemForm.Statement .getms := ⟨_, _, rfl, by decide, by decide⟩

theorem ItemForm.snap : ItemForm.Statement .snap := ⟨_, _, rfl, by decide, by decide⟩

theorem ItemForm.syncq : ItemForm.Statement .syncq := ⟨_, _, rfl, by decide, by decide⟩

theorem ItemForm.handoff (operand : Packed) : ItemForm.Statement (.handoff operand) := ⟨_, _, rfl, rfl, by decide⟩

theorem ItemForm.decen : ItemForm.Statement .decen := ⟨_, _, rfl, by decide, by decide⟩

theorem ItemForm.decdis : ItemForm.Statement .decdis := ⟨_, _, rfl, by decide, by decide⟩

theorem ItemForm.reset : ItemForm.Statement .reset := ⟨_, _, rfl, by decide, by decide⟩

end Sys2Proof.Laws
end

