-- ==== Sys2Proof/Tests/Slice0.lean ====
section
/-! SUPPORT. Tests with results taken from spec/ (95_test_vectors, named by their ids), the WellFormed smoke, and for each statement
with hypotheses a state that meets them. -/

namespace Sys2Proof.Tests

open Sys2Proof.Machine

/-- The next state of an outcome, to compare by decide. -/
def after : Host.Outcome State Fault Refusal → Option State
  | .next s => some s
  | _ => none

/-- The refusal of an outcome, to compare by decide. -/
def refusalOf : Host.Outcome State Fault Refusal → Option Refusal
  | .refused r => some r
  | _ => none

/-- A wallclock value in the field order of 00_scope R12. -/
def wc (y m d h mi s ms : Nat) : Wallclock :=
  { year := BitVec.ofNat 16 y, month := BitVec.ofNat 4 m, day := BitVec.ofNat 6 d, hour := BitVec.ofNat 5 h,
    minute := BitVec.ofNat 6 mi, second := BitVec.ofNat 6 s, millisecond := BitVec.ofNat 10 ms }

/-- The reset state except its wallclock. -/
def at_ (w : Wallclock) : State := { State.reset with wc := w }

/-- The reset state except `LVL`, `LEM`, `MSC`, `CNT`. -/
def edgeAt (l : Level) (lem msc cnt : Nat) : State :=
  { State.reset with lvl := l, lem := BitVec.ofNat 16 lem, msc := BitVec.ofNat 16 msc, cnt := BitVec.ofNat 6 cnt }

/-- The canonical frame of 95_test_vectors W5. -/
def canonical : Frame := 0x0490C15286140000

/-- The value the canonical frame hands off. -/
def w5 : Wallclock := wc 2024 6 15 14 30 0 0

/-- The reset state with the canonical value pending. -/
def pending : State := { State.reset with pend := some w5 }

/-- An edge waits, and the handoff is done. -/
def waitingState : State := { State.reset with lvl := .high, msc := 200, waiting := [.low] }

/-! ### Words (30_encoding R101, R102 written out bit by bit) -/

theorem test_decode_tick : decode [0b00000000] = .ok (.tick, []) := by rfl
theorem test_decode_edge_low : decode [0b00000001] = .ok (.edge .low, []) := by rfl
theorem test_decode_edge_high : decode [0b00010001] = .ok (.edge .high, []) := by rfl
theorem test_decode_getms : decode [0b00000010] = .ok (.getms, []) := by rfl
theorem test_decode_snap : decode [0b00000011] = .ok (.snap, []) := by rfl
theorem test_decode_syncq : decode [0b00000100] = .ok (.syncq, []) := by rfl
theorem test_decode_handoff : decode [0b00000101, 0x00, 0x00, 0x9E, 0x7B, 0x0C, 0xFD, 0x00, 0x00] =
    .ok (.handoff 0x0000FD0C7B9E0000, []) := by rfl
theorem test_decode_decen : decode [0b00000110] = .ok (.decen, []) := by rfl
theorem test_decode_decdis : decode [0b00000111] = .ok (.decdis, []) := by rfl
theorem test_decode_reset : decode [0b00001000] = .ok (.reset, []) := by rfl
theorem test_decode_reserved : decode [0b00010010] = .error (.reservedWord 0x12) ∧
    decode [0b00100001] = .error (.reservedWord 0x21) ∧ decode [0b00001001] = .error (.reservedWord 0x09) := ⟨rfl, rfl, rfl⟩
theorem test_decode_truncated : decode [0x05, 0x00] = .error .operandMissing ∧ decode [] = .error .noByte := ⟨rfl, rfl⟩
theorem test_encode_edge : encode (.edge .high) = [0x11] ∧ encode .reset = [0x08] := by decide
theorem test_encode_handoff : encode (.handoff 0x0000FD0C7B9E0000) =
    [0x05, 0x00, 0x00, 0x9E, 0x7B, 0x0C, 0xFD, 0x00, 0x00] := by decide
theorem test_table_words : decodeTableWord 8 0x11 = some (.edge .high) ∧ decodeTableWord 8 0x05 = some (.handoff 0) ∧
    decodeTableWord 72 0x0000FD0C7B9E000005 = some (.handoff 0x0000FD0C7B9E0000) ∧ decodeTableWord 8 0x09 = none := by decide
theorem test_reserved_count : ((List.range 256).filter fun w => (decodeTableWord 8 w).isNone).length = 246 := by
  decide +kernel
theorem test_asm : asmInstr (.edge .low) = "EDGE LOW" ∧ asmInstr .tick = "TICK" := by decide

/-! ### WellFormed -/

theorem test_ill_formed_handoff : Instr.wellFormed (.handoff 0xFFE0F64208000000) = false := by decide
theorem test_well_formed_handoff : Instr.wellFormed (.handoff 0x001FFFFFFFFFFFFF) = true := by decide

/-! ### Packing and calendar (95_test_vectors 2.1, 2.2) -/

theorem test_pack : pack (wc 2099 12 31 23 59 59 999) = 0x00010678FDFBEFE7 ∧ pack (wc 2024 6 45 14 30 0 0) = 0x0000FD0D6B9E0000 := by
  decide
theorem test_unpack : unpack 0xFFE0F64208000000 = wc 1970 1 1 0 0 0 0 := by decide
theorem test_dim : (List.range 16).map (fun m => dim (BitVec.ofNat 4 m) 2024) =
    [31, 31, 29, 31, 30, 31, 30, 31, 31, 30, 31, 30, 31, 31, 31, 31] := by decide

/-! ### One step each (95_test_vectors 2.3 to 2.10) -/

/-- T13: the year wraps, one REFRESH -/
theorem test_tick_year_wrap : after (exec .tick (at_ (wc 65535 12 31 23 59 59 999))) =
    some { at_ (wc 0 1 1 0 0 0 0) with msc := 1, trace := [.refresh] } := by decide
/-- S6: the minute rolls over into 0, six minutes after 54 -/
theorem test_tick_stale : after (exec .tick { at_ (wc 2024 6 15 14 59 59 999) with synced := true, lsm := 54 }) =
    some { at_ (wc 2024 6 15 15 0 0 0) with lsm := 54, msc := 1, trace := [.refresh] } := by decide
/-- ED6: the interval across the counter wrap is 136, a 0 bit -/
theorem test_edge_wrap : after (exec (.edge .low) (edgeAt .high 65500 100 0)) = some (edgeAt .low 100 100 1) := by decide
/-- ED14: the canonical frame is handed off -/
theorem test_edge_marker : after (exec (.edge .high) { edgeAt .low 0 1800 59 with f := canonical }) =
    some { edgeAt .high 1800 1800 0 with pend := some w5 } := by decide
/-- P1 -/
theorem test_getms : after (exec .getms { State.reset with msc := 102, issuer := .reader 3 }) =
    some { State.reset with msc := 102, issuer := .reader 3, trace := [.ms (.reader 3) 102] } := by decide
/-- RD6 -/
theorem test_snap : after (exec .snap (at_ (wc 2024 6 15 14 35 59 999))) =
    some { at_ (wc 2024 6 15 14 35 59 999) with trace := [.wallclock .resetInput 0x0000FD0C7BA3EFE7] } := by decide
/-- RD3 -/
theorem test_syncq : after (exec .syncq State.reset) = some { State.reset with trace := [.synced .resetInput 0] } := by decide
/-- HO1 -/
theorem test_handoff : after (exec (.handoff 0x0000FD0C7B9E0000) { pending with msc := 1234, wc := wc 1970 1 1 0 0 1 234 }) =
    some { at_ w5 with msc := 1234, synced := true, lsm := 30 } := by decide
/-- HO2 -/
theorem test_handoff_refused : refusalOf (exec (.handoff 0) State.reset) = some .handoffWithoutPending := by decide
/-- CT2 -/
theorem test_decen : after (exec .decen { State.reset with decEn := false }) = some State.reset := by decide
/-- CT1 -/
theorem test_decdis : after (exec .decdis { State.reset with cnt := 12 }) = some { State.reset with cnt := 12, decEn := false } := by
  decide
/-- RS1 -/
theorem test_reset : after (exec .reset { pending with synced := true, decEn := false, msc := 7 }) = some State.reset := by decide

/-! ### The step -/

/-- P1, its first byte, presented by the tick source -/
theorem test_step_tick : after (step ((at_ (wc 2023 12 31 23 59 59 998)).load [0x00, 0x03])) =
    some { at_ (wc 2023 12 31 23 59 59 999) with
      msc := 1, issuer := .tickSource, input := [{ agent := .reader 0, bytes := [0x03] }] } := by decide
/-- ED15: an edge while a handoff pends waits -/
theorem test_step_edge_waits : after (step (pending.withFetchWord 8 0x11)) =
    some { pending with issuer := .edgeSource, waiting := [.high] } := by decide
/-- the waiting edge is handled, its interval sampled then (70_reset_and_hazards R347) -/
theorem test_step_waiting_edge : after (step waitingState) =
    some { State.reset with lvl := .low, lem := 200, msc := 200, cnt := 1, f := 1, issuer := .edgeSource } := by decide
/-- the environment lets a TICK go before the waiting edge -/
theorem test_step_tick_before_edge : after (step (waitingState.withFetchWord 8 0x00)) =
    after (exec .tick { waitingState with issuer := .tickSource }) := by decide
/-- 30_encoding R112: a HANDOFF that a reader issues -/
theorem test_step_foreign_handoff : refusalOf (step { pending with input := [{ agent := .reader 0, bytes := encode (.handoff 0) }] }) =
    some (.notItsAgent (.reader 0)) := by decide
/-- an edge that arrives masked, no handoff pending, behind an edge that waits, is discarded (60_exceptions R305) -/
theorem test_step_masked_behind : after (exec (.edge .high) { waitingState with decEn := false }) =
    some { waitingState with decEn := false } := by decide
theorem test_step_reserved : refusalOf (step (State.reset.withFetchWord 8 0xFF)) = some (.reservedWord 0xFF) := by decide
theorem test_step_idle : after (step State.reset) = some State.reset := by decide

/-! ### Decoder parts (95_test_vectors 2.6, 2.8) -/

/-- W7 and the openness of the ZERO window -/
theorem test_classify : [60, 61, 139, 140, 160, 161, 239, 240].map (fun iv => classify .low (BitVec.ofNat 16 iv)) =
    [.none, .zero, .zero, .none, .none, .one, .one, .none] := by decide
/-- DC13 and DC14: all bits 1 -/
theorem test_decode_all_ones : frameDecode (BitVec.allOnes 59) =
    { minute := 85, hour := 45, day := 45, month := 25, year2 := 165 } := by decide
/-- W6: the parity bits flipped one by one -/
theorem test_parity_flip : [28, 35, 58].map (fun i => frameValid (canonical ^^^ BitVec.twoPow 59 i)) = [false, false, false] := by
  decide

/-! ### The realisation -/

/-- a handoff that the engine sees with a tick in the same cycle (20_memory R92) -/
def chipSeen : Chip :=
  { chipReset with engRun := true, decRun := true, hold := w5, req := true, reqSync1 := true, reqSync2 := true }

theorem test_chip_same_cycle : (chipSeen.clkEng true).wc = w5 ∧ (chipSeen.clkEng true).msc = 1 ∧
    (chipSeen.clkEng true).synced = true ∧ (chipSeen.clkEng true).pend = none := by decide

/-! ### Witnesses: for each statement with hypotheses, values that meet them -/

theorem test_w_decode_encode : Instr.wellFormed (.handoff (pack w5)) = true := by decide
theorem test_w_one_spelling : decode [0x11, 0x00] = .ok (.edge .high, [0x00]) := by rfl
theorem test_w_words : (0x20 : Byte).extractLsb' 5 3 ≠ 0 ∧
    ((0x11 : Byte).extractLsb' 5 3 = 0 ∧ (0x11 : Byte).extractLsb' 0 4 = 1) ∧
    ((0x10 : Byte).extractLsb' 5 3 = 0 ∧ (0x10 : Byte).extractLsb' 0 4 ≠ 1 ∧ (0x10 : Byte).getLsbD 4 = true) ∧
    ((0x09 : Byte).extractLsb' 5 3 = 0 ∧ (0x09 : Byte).extractLsb' 0 4 ≠ 1 ∧ (0x09 : Byte).getLsbD 4 = false ∧
      8 < ((0x09 : Byte).extractLsb' 0 4).toNat) := by decide
theorem test_w_unpack : (0xFFE0000000000000 : Packed).extractLsb' 0 53 = (0 : Packed).extractLsb' 0 53 := by decide
theorem test_w_step_runs : decode [0x00] = .ok (.tick, []) ∧ Instr.wellFormed .tick = true ∧ mayIssue .tickSource .tick = true ∧
    waitingState.waiting ≠ [] ∧ waitingState.pend = none ∧ State.reset.waiting = [] := ⟨rfl, by decide⟩
theorem test_w_waiting : waitingState.waiting = [.low] ∧ waitingState.pend = none ∧ waitingState.input = [] ∧
    waitingState.turns.head? ≠ some true := by decide
theorem test_w_refused_reserved : (State.reset.withFetchWord 8 0x12).nextTurn =
    .presented { agent := .resetInput, bytes := [0x12] } State.reset := by decide
theorem test_w_refused_handoff : (State.reset.withFetchWord 8 0x05).nextTurn =
    .presented { agent := .synchroniser, bytes := encode (.handoff 0) } { State.reset with issuer := .synchroniser } := by decide
theorem test_w_stops : refusalOf (step (State.reset.withFetchWord 8 0x05)) = some .handoffWithoutPending := by decide
theorem test_w_enabling : pending.pend = some w5 ∧ pending.decEn = true ∧ State.reset.pend = none ∧
    ({ pending with decEn := false } : State).pend ≠ none ∧ ({ pending with decEn := false } : State).decEn = false ∧
    waitingState.waiting ≠ [] := by decide
/-- further edges behind the one that is handled, and a presented item that is not let go first -/
theorem test_w_waiting_more : ({ waitingState with waiting := [.low, .high] } : State).waiting = .low :: [.high] ∧
    (({ waitingState with waiting := [.low, .high] } : State).load [0x00]).input ≠ [] ∧
    (after (step ({ waitingState with waiting := [.low, .high] } : State))).map (·.waiting) = some [.high] := by decide
theorem test_w_counter : after (exec .tick State.reset) = some State.reset.tick ∧ after (exec .snap State.reset) ≠ none := by decide
theorem test_w_tick_stale_clause : (wc 2024 6 15 14 59 59 999).carriesMinute ∧ (54 : BitVec 6).toNat ≤ 60 + 0 := by decide
theorem test_w_refresh : chipSeen.engRun = true ∧ (chipSeen.engineOut true).refresh = false := by decide
theorem test_w_valid : (wc 2024 2 29 23 59 59 999).valid ∧ (wc 2024 2 29 23 59 59 999).year.toNat < 65535 ∧
    (wc 65535 12 31 23 59 59 998).valid ∧ ¬ (wc 65535 12 31 23 59 59 998).carriesYear := by
  unfold Wallclock.valid; decide
theorem test_w_idempotent : after (runOps [.snap, .getms, .decdis] State.reset) ≠ none ∧
    (∀ i ∈ ([.snap, .getms, .decdis] : List Instr), i ≠ .tick ∧ keepsTime i = true) := by decide
theorem test_w_handoff : pending.pend = some w5 := by decide
theorem test_w_synced_set : (pending.synced = false ∧ (after (exec (.handoff (pack w5)) pending)).map (·.synced) = some true) := by decide
theorem test_w_synced_cleared : (after (exec .reset { State.reset with synced := true })).map (·.synced) = some false := by decide
theorem test_w_handoff_bounds : w5.handoffBounds := by unfold Wallclock.handoffBounds; decide
theorem test_w_staleness : after (exec (.handoff (pack w5)) pending) = some (pending.applyHandoff w5) ∧
    after (runOps [.tick, .syncq] (pending.applyHandoff w5)) ≠ none ∧
    (∀ i ∈ ([.tick, .syncq] : List Instr), keepsTime i = true) := by decide
theorem test_w_thousand_ticks : tickCount (ticksOps 1000) = 1000 ∧ (∀ i ∈ ticksOps 1000, keepsTime i = true) :=
  ⟨List.count_replicate_self, fun i hi => by rw [List.eq_of_mem_replicate hi]; rfl⟩
theorem test_w_latency : after (runOps [.tick, .edge .high] pending) ≠ none ∧
    (∀ i ∈ ([.tick, .edge .high] : List Instr), keepsTime i = true) := by decide
theorem test_w_access : after (exec .snap State.reset) ≠ none ∧ after (exec .snap { State.reset with lsm := 7, cnt := 3 }) ≠ none ∧
    ({ edgeAt .low 0 1800 59 with f := canonical } : State).pend = none ∧
    (after (exec (.edge .high) { edgeAt .low 0 1800 59 with f := canonical })).map (·.pend) = some (some w5) := by decide
theorem test_w_needs_handoff : (after (runOps [.tick, .handoff 0] pending)).map (·.synced) = some true ∧ pending.synced = false := by
  decide
theorem test_w_bound : pending.pend ≠ none ∧ after (runOps [.tick, .snap, .tick] pending) ≠ none ∧
    meetsHandoffBound (some 2) [.tick, .snap, .tick] pending 0 = true ∧
    meetsHandoffBound (some 1) [.tick, .snap, .tick] pending 0 = false := by decide
theorem test_w_later : waitingState.waiting ≠ [] ∧ waitingState.decEn = true ∧
    ({ waitingState with decEn := false } : State).waiting ≠ [] ∧ ({ waitingState with decEn := false } : State).pend = none := by
  decide
/-- the realisation: an edge already waits and the next change is seen ready and masked; it is discarded -/
theorem test_chip_masked : ({ chipReset with decRun := true, decEn := false, edges := [.high], sigPrev := .high } : Chip).edgesSeen
    false false = [.high] := by decide
theorem test_w_ignored : (edgeAt .low 1000 1200 0).pend = none ∧ (edgeAt .low 1000 1200 0).waiting = [] ∧
    Level.low = (edgeAt .low 1000 1200 0).lvl ∧ ({ State.reset with decEn := false } : State).decEn = false := by decide
theorem test_w_handles_low : handles (edgeAt .high 1000 1200 58) .low := by unfold handles; decide
theorem test_w_handles_high : handles (edgeAt .low 1000 1900 30) .high := by unfold handles; decide
theorem test_w_low_without_bit : (intervalMs (edgeAt .high 1000 1060 5), intervalMs (edgeAt .high 1000 1140 5),
    intervalMs (edgeAt .high 1000 1160 5), intervalMs (edgeAt .high 1000 1240 5), (edgeAt .high 1000 1200 61).cnt.toNat) =
    (60, 140, 160, 240, 61) := by decide
theorem test_w_low_bit : (intervalMs (edgeAt .high 1000 1061 60), intervalMs (edgeAt .high 1000 1139 60),
    intervalMs (edgeAt .high 1000 1161 60), intervalMs (edgeAt .high 1000 1239 60), (edgeAt .high 1000 1200 60).cnt.toNat) =
    (61, 139, 161, 239, 60) := by decide
theorem test_w_high_without_marker : intervalMs (edgeAt .low 1000 2500 30) = 1500 := by decide
theorem test_w_marker : 1500 < intervalMs (edgeAt .low 1000 2501 59) ∧ (edgeAt .low 1000 2501 59).cnt.toNat = 59 ∧
    frameValid canonical = true ∧ (frameDecode canonical).minute ≤ 59 ∧ (frameDecode canonical).hour ≤ 23 ∧
    (frameDecode canonical).month ≤ 12 ∧ (frameDecode canonical).year2 ≤ 99 ∧ (edgeAt .low 1000 2501 58).cnt.toNat ≠ 59 := by decide
theorem test_w_flipped : frameValid canonical = true ∧ 21 ≤ 58 := by decide
theorem test_w_isolated : after (exec (.edge .high) State.reset) ≠ none ∧
    after (exec (.edge .high) { State.reset with synced := true, wc := w5 }) ≠ none := by decide
theorem test_w_signal : let s := edgeAt .high 1600 1600 0
    s.decEn = true ∧ s.lvl = .high ∧ s.lem = s.msc ∧ s.cnt = 0 ∧ s.f = 0 ∧ s.pend = none ∧ s.waiting = [] := by decide
theorem test_w_control : ({ State.reset with decEn := false } : State).decEn = false ∧ State.reset.decEn = true ∧
    pending.pend = some w5 := by decide
theorem test_w_enable_only_edge : after (exec (.handoff 0) pending) ≠ none ∧ after (exec .tick State.reset) ≠ none := by decide
theorem test_w_reset_environment : after (exec .reset waitingState) ≠ none := by decide
theorem test_w_ranges : State.reset.Inv ∧ after (step (State.reset.withFetchWord 8 0x00)) ≠ none :=
  ⟨⟨by unfold Wallclock.inBounds; decide, by decide, by decide, fun i _ => by simp [State.reset], fun w h => by
    simp [State.reset] at h⟩, by decide⟩
/-- the three operations that write the wallclock, and one that does not -/
theorem test_w_wallclock : after (exec .tick State.reset) ≠ none ∧ after (exec (.handoff (pack w5)) pending) ≠ none ∧
    after (exec .reset pending) ≠ none ∧ after (exec .syncq pending) ≠ none := by decide
/-- the results of two reads stand in the trace in the order of the reads -/
theorem test_read_order : (after (runOps [.getms, .syncq] State.reset)).map (·.trace) =
    some [.synced .resetInput 0, .ms .resetInput 0] := by decide
theorem test_w_commute : pending.pend = some w5 ∧
    after (runOps [.edge .low, .tick] (edgeAt .high 1000 1239 0)) ≠ none ∧
    after (exec (.edge .low) { (edgeAt .high 1000 1239 0).tick with msc := 1239 }) ≠ none := by decide
theorem test_w_handshake : chipSeen.handshake ∧ chipSeen.engRun = true ∧ chipSeen.decRun = true ∧ chipSeen.req ≠ chipSeen.ack ∧
    chipSeen.decoderReady = false := by unfold Chip.handshake; decide
/-- a ready decoder with an edge that it sees in this cycle, a 1 bit after 200 ms -/
def chipEdge : Chip :=
  { chipReset with engRun := true, decRun := true, lvl := .high, sigPrev := .high, graySync2 := grayOf 200 }
theorem test_w_decoder_cycle : chipEdge.handshake ∧ chipEdge.decRun = true ∧ chipEdge.decoderReady = true ∧
    chipEdge.edgesSeen true false = [.low] ∧ (chipEdge.clkDec .low true false).cnt = 1 ∧ (chipEdge.clkDec .low true false).f = 1 ∧
    (chipEdge.clkDec .low true false).lem = 200 := by unfold Chip.handshake; decide
theorem test_w_engine_cycle : chipSeen.handshake ∧ chipSeen.engRun = true ∧ chipSeen.handoffSeen = true := by
  unfold Chip.handshake; decide

end Sys2Proof.Tests
end

/-! The bound on handoff latency (00_scope R8): while a handoff stays pending, the counter of `meetsHandoffBound` is the number of
TICKs so far. -/

namespace Sys2Proof.Machine

/-- A run answers exactly where its first operation answers and the rest of the run answers from there. -/
theorem runOps_cons_eq_next_iff {i : Instr} {ops : List Instr} {s t : State} :
    runOps (i :: ops) s = .next t ↔ ∃ u, exec i s = .next u ∧ runOps ops u = .next t := by
  cases h : exec i s <;> simp [runOps, h]

theorem tickCount_cons (i : Instr) (ops : List Instr) : tickCount (i :: ops) = tickCount [i] + tickCount ops :=
  List.count_append (l₁ := [i])

/-- Only HANDOFF and RESET clear `PEND`, and no EDGE is taken while it is set (20_memory R74). -/
theorem exec_pend_of_keepsTime {i : Instr} {s t : State} {w : Wallclock} (hpend : s.pend = some w)
    (hkeep : keepsTime i = true) (hexec : exec i s = .next t) : t.pend = some w := by
  rcases exec_next_cases hexec with ⟨-, rfl⟩ | ⟨l, -, htaken, -⟩ | ⟨l, -, -, rfl⟩ | ⟨-, e, -, rfl⟩ | ⟨x, v, rfl, -, -⟩ |
    ⟨b, -, rfl⟩ | ⟨rfl, -⟩
  case inr.inl =>
    have hnone : s.pend = none := (s.edgeEnabled_iff.mp htaken).1
    simp [hpend] at hnone
  case inr.inr.inr.inr.inl => simp [keepsTime] at hkeep
  case inr.inr.inr.inr.inr.inr => simp [keepsTime] at hkeep
  all_goals simpa using hpend

/-- An open `HANDOFF_MAX_TICKS` bounds nothing (log 13). -/
@[simp] theorem meetsHandoffBound_none (ops : List Instr) (s : State) (k : Nat) : meetsHandoffBound none ops s k = true := by
  cases ops with
  | nil => rfl
  | cons i ops => cases h : exec i s <;> simp [meetsHandoffBound, h]

/-- One operation that keeps the handoff pending adds its own TICK, if it is one, to the count, and the count must meet the bound. -/
theorem meetsHandoffBound_cons_iff_of_pend {i : Instr} {ops : List Instr} {s u : State} {w : Wallclock} {bound k : Nat}
    (hs : s.pend = some w) (hu : u.pend = some w) (hexec : exec i s = .next u) :
    meetsHandoffBound (some bound) (i :: ops) s k = true ↔
      k + tickCount [i] ≤ bound ∧ meetsHandoffBound (some bound) ops u (k + tickCount [i]) = true := by
  simp only [meetsHandoffBound, hexec, hs, hu, Option.isSome_some, and_true, if_true, Bool.and_eq_true, decide_eq_true_eq]
  by_cases htick : i = .tick <;> simp [tickCount, htick]

/-- While the handoff stays pending, a run that starts with `k` TICKs counted meets the bound exactly when `k` and the TICKs of the
run together do. -/
theorem meetsHandoffBound_iff_of_pend {bound k : Nat} {ops : List Instr} {s t : State} {w : Wallclock} (hpend : s.pend = some w)
    (hkeep : ∀ i ∈ ops, keepsTime i = true) (hrun : runOps ops s = .next t) (hk : k ≤ bound) :
    meetsHandoffBound (some bound) ops s k = true ↔ k + tickCount ops ≤ bound := by
  induction ops generalizing s k with
  | nil => simpa [meetsHandoffBound, tickCount] using hk
  | cons i ops ih =>
    obtain ⟨hi, hrest⟩ := List.forall_mem_cons.mp hkeep
    obtain ⟨u, hexec, hrun⟩ := runOps_cons_eq_next_iff.mp hrun
    have hu : u.pend = some w := exec_pend_of_keepsTime hpend hi hexec
    rw [meetsHandoffBound_cons_iff_of_pend hpend hu hexec, tickCount_cons i ops]
    constructor
    · rintro ⟨hle, hmeets⟩
      have := (ih hu hrest hrun hle).mp hmeets
      omega
    · intro htotal
      have hle : k + tickCount [i] ≤ bound := by omega
      exact ⟨hle, (ih hu hrest hrun hle).mpr (by omega)⟩

/-- Settles O33: the count of `meetsHandoffBound` from 0 is `tickCount` while the handoff stays pending. -/
theorem handoffBoundLimitsTicks : Obligations.HandoffBoundLimitsTicks := by
  unfold Obligations.HandoffBoundLimitsTicks
  refine ⟨fun bound s t ops hpend hkeep hrun => ?_, fun s ops k => meetsHandoffBound_none ops s k⟩
  obtain ⟨w, hw⟩ := Option.ne_none_iff_exists'.mp hpend
  simpa using meetsHandoffBound_iff_of_pend hw hkeep hrun bound.zero_le

end Sys2Proof.Machine

/-! The registers of 10_state: what TICK does to the bounds of the wallclock, what a marker hands off, that every step keeps the
reachable ranges (R33, R47), and which operations write the flag, the wallclock and `PEND` (R34, R36, R48). -/

namespace Sys2Proof.Machine

/-! ### The wallclock's bounds along the carry chain (10_state R33) -/

theorem toNat_add_one_le {n k : Nat} {x : BitVec n} (h : x.toNat + 1 ≤ k) : (x + 1).toNat ≤ k := by
  calc (x + 1).toNat = (x.toNat + 1) % 2 ^ n := by simp [BitVec.toNat_add]
    _ ≤ x.toNat + 1 := Nat.mod_le ..
    _ ≤ k := h

theorem dimLut_le (m : Nat) : dimLut m ≤ 31 := by
  unfold dimLut
  split <;> decide

/-- February is the one month whose length depends on the year, and it is short of 31 in either case (40_calendar R144). -/
theorem dim_le (m : BitVec 4) (y : BitVec 16) : dim m y ≤ 31 := by
  unfold dim
  by_cases hfeb : m = 2 ∧ leap y.toNat = true
  · rw [if_pos hfeb, hfeb.left]
    decide
  · rw [if_neg hfeb]
    exact dimLut_le m.toNat

theorem Wallclock.inBounds.with_month {w : Wallclock} (h : w.inBounds) {v : BitVec 4} (hv : v.toNat ≤ 12) :
    ({ w with month := v } : Wallclock).inBounds := by
  obtain ⟨-, hd, hh, hmi, hs, hms⟩ := h
  exact And.intro hv ⟨hd, hh, hmi, hs, hms⟩

theorem Wallclock.inBounds.with_day {w : Wallclock} (h : w.inBounds) {v : BitVec 6} (hv : v.toNat ≤ 45) :
    ({ w with day := v } : Wallclock).inBounds := by
  obtain ⟨hmo, -, hh, hmi, hs, hms⟩ := h
  exact And.intro hmo ⟨hv, hh, hmi, hs, hms⟩

theorem Wallclock.inBounds.with_hour {w : Wallclock} (h : w.inBounds) {v : BitVec 5} (hv : v.toNat ≤ 23) :
    ({ w with hour := v } : Wallclock).inBounds := by
  obtain ⟨hmo, hd, -, hmi, hs, hms⟩ := h
  exact And.intro hmo ⟨hd, hv, hmi, hs, hms⟩

theorem Wallclock.inBounds.with_minute {w : Wallclock} (h : w.inBounds) {v : BitVec 6} (hv : v.toNat ≤ 59) :
    ({ w with minute := v } : Wallclock).inBounds := by
  obtain ⟨hmo, hd, hh, -, hs, hms⟩ := h
  exact And.intro hmo ⟨hd, hh, hv, hs, hms⟩

theorem Wallclock.inBounds.with_second {w : Wallclock} (h : w.inBounds) {v : BitVec 6} (hv : v.toNat ≤ 59) :
    ({ w with second := v } : Wallclock).inBounds := by
  obtain ⟨hmo, hd, hh, hmi, -, hms⟩ := h
  exact And.intro hmo ⟨hd, hh, hmi, hv, hms⟩

theorem Wallclock.inBounds.with_millisecond {w : Wallclock} (h : w.inBounds) {v : BitVec 10} (hv : v.toNat ≤ 999) :
    ({ w with millisecond := v } : Wallclock).inBounds := by
  obtain ⟨hmo, hd, hh, hmi, hs, -⟩ := h
  exact And.intro hmo ⟨hd, hh, hmi, hs, hv⟩

/-- The year is any 16-bit value, so its carry needs no bound (10_state R33). -/
theorem Wallclock.inBounds.nextYear {w : Wallclock} (h : w.inBounds) : w.nextYear.inBounds := h

theorem Wallclock.inBounds.nextMonth {w : Wallclock} (h : w.inBounds) : w.nextMonth.inBounds := by
  unfold Wallclock.nextMonth
  split
  · exact (h.with_month (by decide)).nextYear
  · exact h.with_month (toNat_add_one_le (by omega))

/-- A day that does not carry is at most the month's length; only a handoff writes one above it (42_decoder R233). -/
theorem Wallclock.inBounds.nextDay {w : Wallclock} (h : w.inBounds) : w.nextDay.inBounds := by
  unfold Wallclock.nextDay
  split
  · exact (h.with_day (by decide)).nextMonth
  · have hlen := dim_le w.month w.year
    exact h.with_day (toNat_add_one_le (by omega))

theorem Wallclock.inBounds.nextHour {w : Wallclock} (h : w.inBounds) : w.nextHour.inBounds := by
  unfold Wallclock.nextHour
  split
  · exact (h.with_hour (by decide)).nextDay
  · exact h.with_hour (toNat_add_one_le (by omega))

theorem Wallclock.inBounds.nextMinute {w : Wallclock} (h : w.inBounds) : w.nextMinute.inBounds := by
  unfold Wallclock.nextMinute
  split
  · exact (h.with_minute (by decide)).nextHour
  · exact h.with_minute (toNat_add_one_le (by omega))

theorem Wallclock.inBounds.nextSecond {w : Wallclock} (h : w.inBounds) : w.nextSecond.inBounds := by
  unfold Wallclock.nextSecond
  split
  · exact (h.with_second (by decide)).nextMinute
  · exact h.with_second (toNat_add_one_le (by omega))

theorem Wallclock.inBounds.nextMilli {w : Wallclock} (h : w.inBounds) : w.nextMilli.inBounds := by
  unfold Wallclock.nextMilli
  split
  · exact (h.with_millisecond (by decide)).nextSecond
  · exact h.with_millisecond (toNat_add_one_le (by omega))

theorem Wallclock.epoch_inBounds : Wallclock.epoch.inBounds := by
  unfold Wallclock.inBounds
  decide

/-! ### What a marker hands off (42_decoder R213, R232 to R234) -/

theorem frameSum_le_sum (f : BitVec 59) (lo : Nat) (weights : List Nat) : frameSum f lo weights ≤ weights.sum := by
  induction weights generalizing lo with
  | nil => simp [frameSum]
  | cons w ws ih =>
    have hrest := ih (lo + 1)
    have hfirst : (if f.getLsbD lo then w else 0) ≤ w := by split <;> omega
    simp only [frameSum, List.sum_cons]
    omega

/-- The day is not tested for plausibility; its weights alone keep it at most 45 (42_decoder R232, R233). -/
theorem frameDecode_day_le (f : BitVec 59) : (frameDecode f).day ≤ 45 := frameSum_le_sum f 36 [1, 2, 4, 8, 10, 20]

theorem frameAccepted_iff {cnt : BitVec 6} {f : BitVec 59} :
    frameAccepted cnt f = true ↔ cnt.toNat = frameBits ∧ frameValid f = true ∧ plausible (frameDecode f) = true := by
  simp [frameAccepted, and_assoc]

theorem plausible_iff {d : Decoded} :
    plausible d = true ↔ d.minute ≤ 59 ∧ d.hour ≤ 23 ∧ d.month ≤ 12 ∧ d.year2 ≤ 99 := by
  simp [plausible, and_assoc]

theorem syncVal_handoffBounds {d : Decoded} (hd : plausible d = true) (hday : d.day ≤ 45) : (syncVal d).handoffBounds := by
  obtain ⟨hminute, hhour, hmonth, hyear⟩ := plausible_iff.mp hd
  unfold Wallclock.handoffBounds
  simp only [syncVal, BitVec.toNat_ofNat, yearOffset, true_and]
  omega

theorem Wallclock.handoffBounds.inBounds {w : Wallclock} (h : w.handoffBounds) : w.inBounds := by
  obtain ⟨hsecond, hmilli, hminute, hhour, hmonth, hday, -, -⟩ := h
  exact And.intro hmonth ⟨hday, hhour, hminute, by simp [hsecond], by simp [hmilli]⟩

theorem Wallclock.handoffBounds.minute_le {w : Wallclock} (h : w.handoffBounds) : w.minute.toNat ≤ 59 := by
  obtain ⟨-, -, hminute, -⟩ := h
  exact hminute

/-! ### The reachable ranges under each update (10_state R33, R42, R47) -/

/-- The ranges speak of five registers only. -/
theorem State.Inv.of_same_ranged {s t : State} (h : s.Inv) (hwc : t.wc = s.wc) (hlsm : t.lsm = s.lsm) (hcnt : t.cnt = s.cnt)
    (hf : t.f = s.f) (hpend : t.pend = s.pend) : t.Inv where
  wc := hwc ▸ h.wc
  lsm := hlsm ▸ h.lsm
  cnt := hcnt ▸ h.cnt
  frame := by simpa only [hcnt, hf] using h.frame
  pend := by simpa only [hpend] using h.pend

/-- What the environment presents is no register and has no range. -/
theorem State.Inv.of_environment {s : State} (h : s.Inv) (input : List Item) (waiting : List Level) (turns : List Bool)
    (issuer : Agent) : ({ s with input := input, waiting := waiting, turns := turns, issuer := issuer } : State).Inv :=
  h.of_same_ranged rfl rfl rfl rfl rfl

theorem State.Inv.tick {s : State} (h : s.Inv) : s.tick.Inv where
  wc := by simpa using h.wc.nextMilli
  lsm := by simpa using h.lsm
  cnt := by simpa using h.cnt
  frame := by simpa using h.frame
  pend := by simpa using h.pend

theorem State.Inv.applyHandoff {s : State} (h : s.Inv) {w : Wallclock} (hw : w.handoffBounds) : (s.applyHandoff w).Inv where
  wc := hw.inBounds
  lsm := hw.minute_le
  cnt := h.cnt
  frame := h.frame
  pend := by simp

theorem State.Inv.setPend {s : State} (h : s.Inv) {w : Wallclock} (hw : w.handoffBounds) : (s.setPend (some w)).Inv where
  wc := h.wc
  lsm := h.lsm
  cnt := h.cnt
  frame := h.frame
  pend := by simpa using hw

theorem State.Inv.clearFrame {s : State} (h : s.Inv) : s.clearFrame.Inv where
  wc := h.wc
  lsm := h.lsm
  cnt := by simp
  frame := by simp
  pend := h.pend

theorem State.Inv.recordEdge {s : State} (h : s.Inv) (l : Level) : (s.recordEdge l).Inv :=
  h.of_same_ranged rfl rfl rfl rfl rfl

/-- A bit is accepted at a count of at most 60, so the count ends at most 61; it goes to the first position that was zero, or past
the frame (42_decoder R210, R211). -/
theorem State.Inv.appendBit {s : State} (h : s.Inv) (hcnt : s.cnt.toNat ≤ cntLimit) (b : Bool) : (s.appendBit b).Inv where
  wc := h.wc
  lsm := h.lsm
  cnt := toNat_add_one_le (Nat.succ_le_succ hcnt)
  frame := fun i hi => by
    have hsucc : (s.cnt + 1).toNat = s.cnt.toNat + 1 := by
      rw [cntLimit] at hcnt
      bv_omega
    rw [State.appendBit_cnt, hsucc] at hi
    rw [State.appendBit_f]
    by_cases hlt : i < 59
    · rw [storeBit_getLsbD _ _ _ _ hlt, if_neg (by omega)]
      exact h.frame i (by omega)
    · exact BitVec.getLsbD_of_ge _ _ (by omega)
  pend := h.pend

/-- Settles O53: every register of the reset state is inside its range. -/
theorem resetStateInRanges : Obligations.ResetStateInRanges where
  wc := Wallclock.epoch_inBounds
  lsm := by decide
  cnt := by decide
  frame := fun i _ => by simp [State.reset]
  pend := by simp [State.reset]

theorem State.resetRegisters_inv (s : State) : s.resetRegisters.Inv :=
  State.Inv.of_same_ranged resetStateInRanges rfl rfl rfl rfl rfl

/-- One EDGE step appends only below the limit and hands off only a plausible frame's value (42_decoder R210, R213). -/
theorem State.Inv.handleEdge {s : State} (h : s.Inv) (l : Level) : (s.handleEdge l).Inv := by
  rcases s.handleEdge_cases l with ⟨-, heq⟩ | ⟨-, -, -, -, heq⟩ | ⟨-, -, -, -, haccepted, heq⟩ | ⟨-, -, -, -, -, heq⟩ |
    ⟨-, -, -, -, heq⟩ | ⟨-, -, -, hcnt, b, -, heq⟩ <;> rw [heq]
  · exact h
  · exact h.recordEdge .high
  · obtain ⟨-, -, hplausible⟩ := frameAccepted_iff.mp haccepted
    have hw := syncVal_handoffBounds hplausible (frameDecode_day_le s.f)
    exact ((h.recordEdge .high).setPend hw).clearFrame
  · exact (h.recordEdge .high).clearFrame
  · exact h.recordEdge .low
  · exact (h.recordEdge .low).appendBit hcnt b

theorem exec_inv {i : Instr} {s t : State} (h : s.Inv) (hexec : exec i s = .next t) : t.Inv := by
  rcases exec_next_cases hexec with ⟨-, rfl⟩ | ⟨l, -, -, rfl⟩ | ⟨l, -, -, rfl⟩ | ⟨-, e, -, rfl⟩ | ⟨x, w, -, hpend, rfl⟩ |
    ⟨b, -, rfl⟩ | ⟨-, rfl⟩
  case inl => exact h.tick
  case inr.inl => exact h.handleEdge l
  case inr.inr.inr.inr.inl => exact h.applyHandoff (h.pend w hpend)
  case inr.inr.inr.inr.inr.inr => exact s.resetRegisters_inv
  all_goals exact h.of_same_ranged rfl rfl rfl rfl rfl

/-- Settles O54: a step is idle, or the EDGE of a waiting edge, or a presented operation, from a state with the same registers. -/
theorem stepKeepsRanges : Obligations.StepKeepsRanges := by
  unfold Obligations.StepKeepsRanges
  intro s t h hstep
  rcases step_next_cases hstep with rfl | ⟨l, ls, ts, -, -, rfl⟩ | ⟨q, rest, ts, i, -, -, hexec⟩
  · exact h
  · exact (h.of_environment s.input ls ts .edgeSource).handleEdge l
  · exact exec_inv (h.of_environment rest s.waiting ts q.agent) hexec

/-! ### What an EDGE step leaves alone, and what it makes pending (42_decoder R236, R213) -/

theorem State.handleEdge_engine_trace (s : State) (l : Level) :
    sameEngine s (s.handleEdge l) ∧ (s.handleEdge l).trace = s.trace := by
  unfold sameEngine
  rcases s.handleEdge_cases l with ⟨-, heq⟩ | ⟨-, -, -, -, heq⟩ | ⟨-, -, -, -, -, heq⟩ | ⟨-, -, -, -, -, heq⟩ |
    ⟨-, -, -, -, heq⟩ | ⟨-, -, -, -, b, -, heq⟩ <;> simp [heq]

@[simp] theorem State.handleEdge_wc (s : State) (l : Level) : (s.handleEdge l).wc = s.wc := by
  obtain ⟨⟨hwc, -⟩, -⟩ := s.handleEdge_engine_trace l
  exact hwc

@[simp] theorem State.handleEdge_synced (s : State) (l : Level) : (s.handleEdge l).synced = s.synced := by
  obtain ⟨⟨-, -, hsynced, -⟩, -⟩ := s.handleEdge_engine_trace l
  exact hsynced

@[simp] theorem State.handleEdge_trace (s : State) (l : Level) : (s.handleEdge l).trace = s.trace := by
  obtain ⟨-, htrace⟩ := s.handleEdge_engine_trace l
  exact htrace

theorem State.handleEdge_pend_of_none {s : State} {l : Level} {w : Wallclock} (hnone : s.pend = none)
    (hsome : (s.handleEdge l).pend = some w) :
    l = .high ∧ frameAccepted s.cnt s.f = true ∧ w = syncVal (frameDecode s.f) := by
  rcases s.handleEdge_cases l with ⟨-, heq⟩ | ⟨-, -, -, -, heq⟩ | ⟨-, -, hhigh, -, haccepted, heq⟩ | ⟨-, -, -, -, -, heq⟩ |
    ⟨-, -, -, -, heq⟩ | ⟨-, -, -, -, b, -, heq⟩
  case inr.inr.inl =>
    refine ⟨hhigh, haccepted, ?_⟩
    simpa [heq, eq_comm] using hsome
  all_goals simp [heq, hnone] at hsome

/-! ### Rights (10_state R48) -/

/-- What an operation adds to the trace, from the registers R48 lets an agent read and the issuer alone. -/
def outputOf (i : Instr) (wc : Wallclock) (msc : BitVec 16) (synced : Bool) (issuer : Agent) : List Event :=
  match i with
  | .tick => if refreshInstant wc.nextMilli.millisecond then [.refresh] else []
  | .getms => [.ms issuer msc]
  | .snap => [.wallclock issuer (pack wc)]
  | .syncq => [.synced issuer (syncedBit synced)]
  | _ => []

theorem exec_tick_eq (s : State) : exec .tick s = .next s.tick := rfl
theorem exec_getms_eq (s : State) : exec .getms s = .next (s.record (.ms s.issuer s.msc)) := rfl
theorem exec_snap_eq (s : State) : exec .snap s = .next (s.record (.wallclock s.issuer (pack s.wc))) := rfl
theorem exec_syncq_eq (s : State) : exec .syncq s = .next (s.record (.synced s.issuer (syncedBit s.synced))) := rfl
theorem exec_reset_eq (s : State) : exec .reset s = .next s.resetRegisters := rfl

theorem exec_handoff_of_pend {s : State} {w : Wallclock} (hpend : s.pend = some w) (x : Packed) :
    exec (.handoff x) s = .next (s.applyHandoff w) := by
  simp [exec, execHandoff, hpend]

theorem exec_trace {i : Instr} {s t : State} (hexec : exec i s = .next t) :
    t.trace = outputOf i s.wc s.msc s.synced s.issuer ++ s.trace := by
  rcases exec_next_cases hexec with ⟨rfl, rfl⟩ | ⟨l, rfl, -, rfl⟩ | ⟨l, rfl, -, rfl⟩ | ⟨hread, -⟩ | ⟨x, w, rfl, -, rfl⟩ |
    ⟨b, rfl, rfl⟩ | ⟨rfl, rfl⟩
  case inl => simp [outputOf, apply_ite (· ++ s.trace)]
  case inr.inr.inr.inl =>
    rcases hread with rfl | rfl | rfl
    · rw [exec_getms_eq, Host.Outcome.next.injEq] at hexec
      simp [← hexec, outputOf]
    · rw [exec_snap_eq, Host.Outcome.next.injEq] at hexec
      simp [← hexec, outputOf]
    · rw [exec_syncq_eq, Host.Outcome.next.injEq] at hexec
      simp [← hexec, outputOf]
  case inr.inr.inr.inr.inr.inl => cases b <;> simp [outputOf]
  all_goals simp [outputOf]

theorem exec_pend_of_none {i : Instr} {s t : State} {w : Wallclock} (hexec : exec i s = .next t) (hnone : s.pend = none)
    (hsome : t.pend = some w) :
    i = .edge .high ∧ frameAccepted s.cnt s.f = true ∧ w = syncVal (frameDecode s.f) := by
  rcases exec_next_cases hexec with ⟨-, rfl⟩ | ⟨l, rfl, -, rfl⟩ | ⟨l, -, -, rfl⟩ | ⟨-, e, -, rfl⟩ | ⟨x, v, -, -, rfl⟩ |
    ⟨b, -, rfl⟩ | ⟨-, rfl⟩
  case inr.inl =>
    obtain ⟨rfl, haccepted, hw⟩ := s.handleEdge_pend_of_none hnone hsome
    exact ⟨rfl, haccepted, hw⟩
  all_goals simp [hnone] at hsome

theorem isReader_iff {a : Agent} : isReader a = true ↔ ∃ n, a = .reader n := by
  cases a <;> simp [isReader]

/-- Settles O13: who may issue an operation is read off `mayIssue`; results are `outputOf` of the readable registers. -/
theorem accessRights : Obligations.AccessRights := by
  unfold Obligations.AccessRights
  refine ⟨fun a i => ?_, fun i s t s' t' hs ht hwc hmsc hsynced hissuer htrace => ?_, fun i s t w hexec hnone hsome => ?_⟩
  · cases i <;> simp [mayIssue, isReader_iff]
  · rw [exec_trace hs, exec_trace ht, hwc, hmsc, hsynced, hissuer, htrace]
  · obtain ⟨hi, haccepted, hw⟩ := exec_pend_of_none hexec hnone hsome
    obtain ⟨-, hvalid, hplausible⟩ := frameAccepted_iff.mp haccepted
    exact ⟨hi, hvalid, hplausible, hw⟩

/-! ### The flag (10_state R36) -/

theorem Wallclock.minuteRoll_iff {w : Wallclock} : w.minuteRoll = true ↔ w.carriesMinute := by
  simp [Wallclock.minuteRoll, Wallclock.carriesMinute, Wallclock.carriesSecond]

theorem isStale_iff {mi lsm : BitVec 6} (hle : lsm.toNat ≤ 60 + mi.toNat) :
    isStale mi lsm = true ↔ 5 < (60 + mi.toNat - lsm.toNat) % 60 := by
  simp [isStale, staleDifference, hle]

@[simp] theorem syncedAfterTick_false (minuteRoll : Bool) (mi lsm : BitVec 6) :
    syncedAfterTick false minuteRoll mi lsm = false := rfl

theorem syncedAfterTick_true_eq_false_iff {minuteRoll : Bool} {mi lsm : BitVec 6} :
    syncedAfterTick true minuteRoll mi lsm = false ↔ minuteRoll = true ∧ isStale mi lsm = true := by
  simp [syncedAfterTick]

theorem handoff_of_exec_sets_synced {i : Instr} {s t : State} (hexec : exec i s = .next t) (hclear : s.synced = false)
    (hset : t.synced = true) : ∃ x, i = .handoff x := by
  rcases exec_next_cases hexec with ⟨-, rfl⟩ | ⟨l, -, -, rfl⟩ | ⟨l, -, -, rfl⟩ | ⟨-, e, -, rfl⟩ | ⟨x, w, rfl, -⟩ |
    ⟨b, -, rfl⟩ | ⟨-, rfl⟩
  case inr.inr.inr.inr.inl => exact ⟨x, rfl⟩
  all_goals simp [hclear] at hset

theorem reset_or_stale_tick_of_exec_clears_synced {i : Instr} {s t : State} (hexec : exec i s = .next t) (hset : s.synced = true)
    (hclear : t.synced = false) :
    i = .reset ∨ (i = .tick ∧ s.wc.carriesMinute ∧ isStale t.wc.minute s.lsm = true) := by
  rcases exec_next_cases hexec with ⟨hi, rfl⟩ | ⟨l, -, -, rfl⟩ | ⟨l, -, -, rfl⟩ | ⟨-, e, -, rfl⟩ | ⟨x, w, -, -, rfl⟩ |
    ⟨b, -, rfl⟩ | ⟨hi, -⟩
  case inl =>
    rw [State.tick_synced, hset] at hclear
    obtain ⟨hroll, hstale⟩ := syncedAfterTick_true_eq_false_iff.mp hclear
    exact .inr ⟨hi, Wallclock.minuteRoll_iff.mp hroll, by rwa [State.tick_wc]⟩
  case inr.inr.inr.inr.inr.inr => exact .inl hi
  all_goals simp [hset] at hclear

/-- Settles O27, by the two lemmas on what sets and what clears the flag. -/
theorem syncedSetOnlyByHandoff : Obligations.SyncedSetOnlyByHandoff := by
  unfold Obligations.SyncedSetOnlyByHandoff
  refine ⟨fun i s t => handoff_of_exec_sets_synced, fun s w hpend => ?_, fun i s t hexec hset hclear => ?_, exec_syncq_eq,
    fun s => ⟨_, exec_reset_eq s, s.resetRegisters_synced⟩, rfl⟩
  · exact ⟨_, exec_handoff_of_pend hpend (pack w), s.applyHandoff_synced w⟩
  · rcases reset_or_stale_tick_of_exec_clears_synced hexec hset hclear with hreset | ⟨htick, hcarry, hstale⟩
    · exact .inl hreset
    · exact .inr ⟨htick, hcarry, fun hle => (isStale_iff hle).mp hstale⟩

/-- Settles O28, by induction on the run: the flag is set by the first operation, which is then HANDOFF, or in the rest. -/
theorem syncedNeedsHandoff : Obligations.SyncedNeedsHandoff := by
  unfold Obligations.SyncedNeedsHandoff
  intro ops
  induction ops with
  | nil =>
    intro s t hrun hclear hset
    simp only [runOps, Host.Outcome.next.injEq] at hrun
    simp [← hrun, hclear] at hset
  | cons i ops ih =>
    intro s t hrun hclear hset
    obtain ⟨u, hexec, hrest⟩ := runOps_cons_eq_next_iff.mp hrun
    cases hu : u.synced with
    | true =>
      obtain ⟨x, rfl⟩ := handoff_of_exec_sets_synced hexec hclear hu
      exact ⟨x, List.mem_cons_self⟩
    | false =>
      obtain ⟨x, hx⟩ := ih u t hrest hu hset
      exact ⟨x, List.mem_cons_of_mem i hx⟩

/-! ### The wallclock (10_state R34) -/

theorem exec_wc_of_not_writer {i : Instr} {s t : State} (htick : i ≠ .tick) (hhandoff : ∀ x, i ≠ .handoff x) (hreset : i ≠ .reset)
    (hexec : exec i s = .next t) : t.wc = s.wc := by
  rcases exec_next_cases hexec with ⟨hi, -⟩ | ⟨l, -, -, rfl⟩ | ⟨l, -, -, rfl⟩ | ⟨-, e, -, rfl⟩ | ⟨x, w, hi, -⟩ |
    ⟨b, -, rfl⟩ | ⟨hi, -⟩
  case inl => exact absurd hi htick
  case inr.inr.inr.inr.inl => exact absurd hi (hhandoff x)
  case inr.inr.inr.inr.inr.inr => exact absurd hi hreset
  all_goals simp

/-- Settles O29: the three operations that write the wallclock, each by its equation, and the rest by what they leave. -/
theorem wallclockWrittenWhole : Obligations.WallclockWrittenWhole := by
  unfold Obligations.WallclockWrittenWhole
  refine ⟨fun s t hexec => ?_, fun s t w hpend hexec => ?_, fun s t hexec => ?_, fun i s t => exec_wc_of_not_writer, rfl⟩
  · rw [exec_tick_eq, Host.Outcome.next.injEq] at hexec
    rw [← hexec, State.tick_wc]
  · rw [exec_handoff_of_pend hpend, Host.Outcome.next.injEq] at hexec
    rw [← hexec, State.applyHandoff_wc]
  · rw [exec_reset_eq, Host.Outcome.next.injEq] at hexec
    rw [← hexec, State.resetRegisters_wc, State.reset]

end Sys2Proof.Machine

/-! The order of operations in 20_memory: what each step runs (R70 to R74), what reads leave alone (R77), and which adjacent steps
commute (R80). -/

namespace Sys2Proof.Machine

/-! ### The effect of single operations -/

theorem exec_decen_eq (s : State) : exec .decen s = .next (s.setDecEn true) := rfl
theorem exec_decdis_eq (s : State) : exec .decdis s = .next (s.setDecEn false) := rfl

theorem exec_handoff_of_not_pend {s : State} (hpend : s.pend = none) (x : Packed) :
    exec (.handoff x) s = .refused .handoffWithoutPending := by
  simp [exec, execHandoff, hpend]

theorem exec_edge_of_enabled {s : State} (henabled : s.edgeEnabled = true) (l : Level) :
    exec (.edge l) s = .next (s.handleEdge l) := by
  simp [exec, execEdge, henabled]

theorem exec_edge_of_not_enabled {s : State} (hdisabled : s.edgeEnabled = false) (l : Level) :
    exec (.edge l) s = .next (s.waitEdge l) := by
  simp [exec, execEdge, hdisabled]

theorem exec_edge_of_none_waiting {s : State} (hpend : s.pend = none) (hwaiting : s.waiting = []) (l : Level) :
    exec (.edge l) s = .next (s.handleEdge l) :=
  exec_edge_of_enabled (s.edgeEnabled_iff.mpr ⟨hpend, .inl hwaiting⟩) l

theorem State.edgeEnabled_of_pend {s : State} (hpend : s.pend ≠ none) : s.edgeEnabled = false :=
  Bool.eq_false_iff.mpr fun henabled => hpend (s.edgeEnabled_iff.mp henabled).1

theorem State.handleEdge_of_masked {s : State} (hmasked : s.decEn = false) (l : Level) : s.handleEdge l = s := by
  simp [State.handleEdge, hmasked]

@[simp] theorem State.handleEdge_msc (s : State) (l : Level) : (s.handleEdge l).msc = s.msc := by
  obtain ⟨⟨-, hmsc, -⟩, -⟩ := s.handleEdge_engine_trace l
  exact hmsc

@[simp] theorem State.handleEdge_lsm (s : State) (l : Level) : (s.handleEdge l).lsm = s.lsm := by
  obtain ⟨⟨-, -, -, hlsm⟩, -⟩ := s.handleEdge_engine_trace l
  exact hlsm

theorem State.handleEdge_sameEnvironment (s : State) (l : Level) : sameEnvironment s (s.handleEdge l) := by
  unfold sameEnvironment
  rcases s.handleEdge_cases l with ⟨-, heq⟩ | ⟨-, -, -, -, heq⟩ | ⟨-, -, -, -, -, heq⟩ | ⟨-, -, -, -, -, heq⟩ |
    ⟨-, -, -, -, heq⟩ | ⟨-, -, -, -, b, -, heq⟩ <;> simp [heq]

/-- The state with another wallclock, flag and trace. -/
def State.withTime (wc : Wallclock) (synced : Bool) (trace : List Event) (s : State) : State :=
  { s with wc := wc, synced := synced, trace := trace }

section WithTime

variable (s : State) (wc : Wallclock) (synced : Bool) (trace : List Event)

@[simp] theorem State.withTime_decEn : (s.withTime wc synced trace).decEn = s.decEn := rfl
@[simp] theorem State.withTime_lvl : (s.withTime wc synced trace).lvl = s.lvl := rfl
@[simp] theorem State.withTime_cnt : (s.withTime wc synced trace).cnt = s.cnt := rfl
@[simp] theorem State.withTime_f : (s.withTime wc synced trace).f = s.f := rfl

theorem State.markerEdge_withTime :
    (s.withTime wc synced trace).markerEdge = s.markerEdge.withTime wc synced trace := by
  by_cases haccepted : frameAccepted s.cnt s.f = true
  · simp only [State.markerEdge, State.withTime_cnt, State.withTime_f, haccepted, if_true]
    rfl
  · simp only [State.markerEdge, State.withTime_cnt, State.withTime_f, haccepted]
    rfl

theorem State.highEdge_withTime (iv : BitVec 16) :
    (s.withTime wc synced trace).highEdge iv = (s.highEdge iv).withTime wc synced trace := by
  unfold State.highEdge
  split_ifs
  · exact s.markerEdge_withTime wc synced trace
  · rfl

theorem State.lowEdge_withTime (iv : BitVec 16) :
    (s.withTime wc synced trace).lowEdge iv = (s.lowEdge iv).withTime wc synced trace := by
  by_cases hlimit : s.cnt.toNat > cntLimit
  · simp only [State.lowEdge, State.withTime_cnt, hlimit, if_true]
  · simp only [State.lowEdge, State.withTime_cnt, hlimit, if_false]
    cases symbolBit (classify .low iv) <;> rfl

/-- One EDGE step neither reads nor writes the wallclock, the flag and the trace (42_decoder R236). -/
theorem State.handleEdge_withTime (l : Level) :
    (s.withTime wc synced trace).handleEdge l = (s.handleEdge l).withTime wc synced trace := by
  by_cases hmasked : s.decEn = false
  · rw [State.handleEdge_of_masked hmasked, State.handleEdge_of_masked (s.withTime_decEn wc synced trace ▸ hmasked)]
  by_cases hlvl : l = s.lvl
  · simp only [State.handleEdge, State.withTime_decEn, State.withTime_lvl, hlvl, if_true, ite_self]
  · simp only [State.handleEdge, State.withTime_decEn, State.withTime_lvl, hmasked, hlvl, if_false]
    cases l with
    | high => exact (s.recordEdge .high).highEdge_withTime wc synced trace s.interval
    | low => exact (s.recordEdge .low).lowEdge_withTime wc synced trace s.interval

end WithTime

theorem State.tick_eq (s : State) :
    s.tick = { s with
      wc := s.wc.nextMilli
      msc := s.msc + 1
      synced := syncedAfterTick s.synced s.wc.minuteRoll s.wc.nextMilli.minute s.lsm
      trace := if refreshInstant s.wc.nextMilli.millisecond then .refresh :: s.trace else s.trace } := by
  unfold State.tick State.emitRefreshAt
  split <;> rfl

/-! ### The choice of the next operation (20_memory R70, R72, R74) -/

theorem State.nextTurn_of_no_enabled_waiting {s : State} (h : s.waiting = [] ∨ s.pend ≠ none) : s.nextTurn = s.presentedTurn := by
  unfold State.nextTurn
  split
  next hwaiting hpend => simp [hwaiting, hpend] at h
  next => rfl

theorem State.nextTurn_of_turn_presented {s : State} {q : Item} {later : List Item} {ts : List Bool}
    (hinput : s.input = q :: later) (hwaiting : s.waiting ≠ []) (hpend : s.pend = none) (hturns : s.turns = true :: ts) :
    s.nextTurn = .presented q { s with input := later, turns := ts, issuer := q.agent } := by
  obtain ⟨l, ls, hcons⟩ := List.exists_cons_of_ne_nil hwaiting
  simp [State.nextTurn, hcons, hpend, hinput, hturns]

theorem State.nextTurn_of_nothing_presented {s : State} {l : Level} {ls : List Level} (hwaiting : s.waiting = l :: ls)
    (hpend : s.pend = none) (hinput : s.input = []) :
    s.nextTurn = .waitingEdge l { s with waiting := ls, issuer := .edgeSource } := by
  simp [State.nextTurn, hwaiting, hpend, hinput]

theorem State.nextTurn_of_turn_waiting {s : State} {l : Level} {ls : List Level} (hwaiting : s.waiting = l :: ls)
    (hpend : s.pend = none) (hinput : s.input ≠ []) (hturns : s.turns.head? ≠ some true) :
    s.nextTurn = .waitingEdge l { s with waiting := ls, turns := s.turns.tail, issuer := .edgeSource } := by
  obtain ⟨q, rest, hcons⟩ := List.exists_cons_of_ne_nil hinput
  cases ht : s.turns with
  | nil => simp [State.nextTurn, hwaiting, hpend, hcons, ht]
  | cons turn ts =>
    obtain rfl : turn = false := by simpa [ht] using hturns
    simp [State.nextTurn, hwaiting, hpend, hcons, ht]

theorem step_of_presented {s t : State} {q : Item} {i : Instr} (hturn : s.nextTurn = .presented q t)
    (hread : readItem q = .ok i) : step s = exec i t := by
  simp [step, hturn, hread]

/-- The step of an enabled waiting edge is EDGE with none waiting before it, the rest of the edges put back. -/
theorem step_of_waitingEdge {s : State} {l : Level} {ls : List Level} {ts : List Bool} (hpend : s.pend = none)
    (hturn : s.nextTurn = .waitingEdge l { s with waiting := ls, turns := ts, issuer := .edgeSource }) :
    ∃ t, exec (.edge l) { s with waiting := [], turns := ts, issuer := .edgeSource } = .next t ∧
      step s = .next { t with waiting := ls } := by
  refine ⟨_, exec_edge_of_none_waiting (s := { s with waiting := [], turns := ts, issuer := .edgeSource }) hpend rfl l, ?_⟩
  rw [step, hturn]
  simp only [s.handleEdge_environment l s.input _ ts .edgeSource]

/-- Settles O7: where no waiting edge is enabled, and where the environment's choice lets the item go first. -/
theorem stepRunsPresentedOperation : Obligations.StepRunsPresentedOperation := by
  unfold Obligations.StepRunsPresentedOperation
  intro s q later i hinput hdecode _ hissue
  have hread : readItem q = .ok i := readItem_ok_iff.mpr ⟨hdecode, hissue⟩
  refine ⟨fun hnone => step_of_presented ?_ hread, fun ts hwaiting hpend hturns => step_of_presented ?_ hread⟩
  · rw [State.nextTurn_of_no_enabled_waiting hnone, State.presentedTurn, hinput]
  · exact State.nextTurn_of_turn_presented hinput hwaiting hpend hturns

/-- Settles O8: the oldest waiting edge goes next, whether nothing is presented or the item is not let go first. -/
theorem stepWithoutPresentedOperation : Obligations.StepWithoutPresentedOperation := by
  unfold Obligations.StepWithoutPresentedOperation
  refine ⟨fun s l ls hwaiting hpend => ⟨fun hinput => ?_, fun hinput hturns => ?_⟩, fun s hinput hnone => ?_⟩
  · exact step_of_waitingEdge hpend (State.nextTurn_of_nothing_presented hwaiting hpend hinput)
  · exact step_of_waitingEdge hpend (State.nextTurn_of_turn_waiting hwaiting hpend hinput hturns)
  · simp [step, State.nextTurn_of_no_enabled_waiting hnone, State.presentedTurn, hinput]

/-- Settles O11: HANDOFF by what is pending, the other operations by their equations, EDGE by its enabling. -/
theorem enablingConditions : Obligations.EnablingConditions := by
  unfold Obligations.EnablingConditions
  refine ⟨fun s w hpend => ⟨_, exec_handoff_of_pend hpend _⟩, fun s x hpend => ?_, fun s i hi => ?_,
    fun s l hpend _ => exec_edge_of_not_enabled (State.edgeEnabled_of_pend hpend) l,
    fun s l hpend _ => exec_edge_of_not_enabled (State.edgeEnabled_of_pend hpend) l⟩
  · simp [exec_handoff_of_not_pend hpend]
  · simp only [List.mem_cons, List.not_mem_nil, or_false] at hi
    rcases hi with rfl | rfl | rfl | rfl | rfl | rfl | rfl <;> exact ⟨_, rfl⟩

/-- Settles O12: behind a waiting edge EDGE is taken at once only where it is masked and nothing is pending. -/
theorem laterEdgeWaitsBehindOlder : Obligations.LaterEdgeWaitsBehindOlder := by
  unfold Obligations.LaterEdgeWaitsBehindOlder
  refine ⟨fun s l hwaiting hblocked => ?_, fun s l _ hmasked hpend => ?_⟩
  · refine exec_edge_of_not_enabled (Bool.eq_false_iff.mpr fun henabled => ?_) l
    obtain ⟨hpend, hfree⟩ := s.edgeEnabled_iff.mp henabled
    simp [hpend, hfree.resolve_left hwaiting] at hblocked
  · rw [exec_edge_of_enabled (s.edgeEnabled_iff.mpr ⟨hpend, .inr hmasked⟩), State.handleEdge_of_masked hmasked]

/-! ### Reads and unwritten registers (20_memory R77) -/

/-- What every operation of a run keeps, the run keeps. -/
theorem runOps_keeps {α : Type} {register : State → α} {ops : List Instr} {s t : State} (hrun : runOps ops s = .next t)
    (hkeep : ∀ i ∈ ops, ∀ u v, exec i u = .next v → register v = register u) : register t = register s := by
  induction ops generalizing s with
  | nil =>
    rw [runOps, Host.Outcome.next.injEq] at hrun
    rw [hrun]
  | cons i ops ih =>
    obtain ⟨hi, hrest⟩ := List.forall_mem_cons.mp hkeep
    obtain ⟨u, hexec, hrun⟩ := runOps_cons_eq_next_iff.mp hrun
    rw [ih hrun hrest, hi s u hexec]

theorem exec_msc_of_not_writer {i : Instr} {s t : State} (htick : i ≠ .tick) (hreset : i ≠ .reset) (hexec : exec i s = .next t) :
    t.msc = s.msc := by
  rcases exec_next_cases hexec with ⟨hi, -⟩ | ⟨l, -, -, rfl⟩ | ⟨l, -, -, rfl⟩ | ⟨-, e, -, rfl⟩ | ⟨x, w, -, -, rfl⟩ |
    ⟨b, -, rfl⟩ | ⟨hi, -⟩
  case inl => exact absurd hi htick
  case inr.inr.inr.inr.inr.inr => exact absurd hi hreset
  all_goals simp

/-- The flag changes only by an operation that sets it, HANDOFF, or clears it, TICK or RESET (10_state R36). -/
theorem exec_synced_of_not_writer {i : Instr} {s t : State} (htick : i ≠ .tick) (hhandoff : ∀ x, i ≠ .handoff x)
    (hreset : i ≠ .reset) (hexec : exec i s = .next t) : t.synced = s.synced := by
  cases hs : s.synced with
  | false =>
    refine Bool.eq_false_iff.mpr fun ht => ?_
    obtain ⟨x, hi⟩ := handoff_of_exec_sets_synced hexec hs ht
    exact hhandoff x hi
  | true =>
    by_contra ht
    rcases reset_or_stale_tick_of_exec_clears_synced hexec hs (by simpa using ht) with hi | ⟨hi, -⟩
    · exact hreset hi
    · exact htick hi

theorem keepsTime_iff {i : Instr} : keepsTime i = true ↔ (∀ x, i ≠ .handoff x) ∧ i ≠ .reset := by
  cases i <;> simp [keepsTime]

/-- Only a read records its result, and it does nothing else. -/
theorem exec_eq_of_read {i : Instr} (hread : i ∈ ([.snap, .getms, .syncq] : List Instr)) (s : State) :
    exec i s = .next { s with trace := outputOf i s.wc s.msc s.synced s.issuer ++ s.trace } := by
  simp only [List.mem_cons, List.not_mem_nil, or_false] at hread
  rcases hread with rfl | rfl | rfl <;> rfl

/-- Settles O24: a read by its equation, a run by induction with the operations that write each register. -/
theorem readsHaveNoSideEffect : Obligations.ReadsHaveNoSideEffect := by
  unfold Obligations.ReadsHaveNoSideEffect
  refine ⟨fun i s t hread hexec => ?_, fun ops s t hrun hops => ?_, fun ops s t hrun hops => ?_⟩
  · rw [exec_eq_of_read hread, Host.Outcome.next.injEq] at hexec
    rw [← hexec]
  · refine runOps_keeps hrun fun i hi u v hexec => ?_
    obtain ⟨htick, hreset⟩ := hops i hi
    exact exec_msc_of_not_writer htick hreset hexec
  · refine Prod.mk.inj (runOps_keeps (register := fun s => (s.wc, s.synced)) hrun fun i hi u v hexec => ?_)
    obtain ⟨htick, hkeep⟩ := hops i hi
    obtain ⟨hhandoff, hreset⟩ := keepsTime_iff.mp hkeep
    exact Prod.ext (exec_wc_of_not_writer htick hhandoff hreset hexec) (exec_synced_of_not_writer htick hhandoff hreset hexec)

/-! ### Adjacent steps (20_memory R80) -/

theorem runOps_pair {i j : Instr} {s u t : State} (hfirst : exec i s = .next u) (hsecond : exec j u = .next t) :
    runOps [i, j] s = .next t := by
  simp [runOps, hfirst, hsecond]

/-- The enable bit after an operation that is a read, DECEN or DECDIS. -/
def enableAfter (i : Instr) (decEn : Bool) : Bool :=
  match i with
  | .decen => true
  | .decdis => false
  | _ => decEn

/-- A read or an enable control writes the enable bit and the trace alone, and neither depends on what the other writes. -/
theorem exec_eq_of_read_or_control {j : Instr} (hj : j ∈ ([.snap, .getms, .syncq, .decen, .decdis] : List Instr)) (s : State) :
    exec j s = .next { s with
      decEn := enableAfter j s.decEn
      trace := outputOf j s.wc s.msc s.synced s.issuer ++ s.trace } := by
  simp only [List.mem_cons, List.not_mem_nil, or_false] at hj
  rcases hj with rfl | rfl | rfl | rfl | rfl <;> rfl

theorem outputOf_read {i : Instr} (hread : i ∈ ([.snap, .getms, .syncq] : List Instr)) (wc : Wallclock) (msc : BitVec 16)
    (synced : Bool) (issuer : Agent) : ∃ e, outputOf i wc msc synced issuer = [e] := by
  simp only [List.mem_cons, List.not_mem_nil, or_false] at hread
  rcases hread with rfl | rfl | rfl <;> exact ⟨_, rfl⟩

/-- An EDGE that samples the counter from before the TICK gives after it what it gives before it. -/
theorem State.tick_handleEdge (s : State) (l : Level) :
    (s.handleEdge l).tick = { ({ s.tick with msc := s.msc } : State).handleEdge l with msc := s.msc + 1 } := by
  have hrest : ({ s.tick with msc := s.msc } : State) = s.withTime s.tick.wc s.tick.synced s.tick.trace := by
    rw [State.tick_eq, State.withTime]
  rw [hrest, State.handleEdge_withTime, State.tick_eq (s.handleEdge l)]
  simp [State.withTime]

theorem Wallclock.nextMilli_of_zero {w : Wallclock} (hzero : w.millisecond = 0) : w.nextMilli = { w with millisecond := 1 } := by
  simp [Wallclock.nextMilli, hzero]

/-- Settles O55, item by item of R80. -/
theorem adjacentStepsCommute : Obligations.AdjacentStepsCommute := by
  unfold Obligations.AdjacentStepsCommute
  refine ⟨fun i j s hread hj => ?_, fun l s a b c hpend hwaiting hrun htick hedge => ?_, fun s w hpend hw => ?_⟩
  · obtain ⟨e, hout⟩ := outputOf_read hread s.wc s.msc s.synced s.issuer
    have hi := exec_eq_of_read hread
    have hcontrol := exec_eq_of_read_or_control hj
    refine ⟨e, _, _, _, _, ?_, hcontrol s, rfl, runOps_pair (hi s) (hcontrol _), runOps_pair (hcontrol s) (hi _), rfl, ?_, ?_⟩
    · rw [hi s, hout, List.singleton_append]
    · rw [hout, List.singleton_append]
    · rw [hout, List.singleton_append]
  · obtain rfl : a = (s.handleEdge l).tick := by
      simpa [runOps_pair (exec_edge_of_none_waiting hpend hwaiting l) (exec_tick_eq _), eq_comm] using hrun
    obtain rfl : b = s.tick := by simpa [exec_tick_eq, eq_comm] using htick
    rw [exec_edge_of_none_waiting (by simpa using hpend) (by simpa using hwaiting), Host.Outcome.next.injEq] at hedge
    rw [← hedge, State.tick_handleEdge]
  · obtain ⟨-, hmilli, -⟩ := hw
    refine ⟨_, _, runOps_pair (exec_tick_eq s) (exec_handoff_of_pend ?_ _),
      runOps_pair (exec_handoff_of_pend hpend _) (exec_tick_eq _), rfl, ?_, ?_, ?_⟩
    · simpa using hpend
    · simp [Wallclock.nextMilli_of_zero hmilli]
    · simp
    · simp

end Sys2Proof.Machine

/-! The reference realisation of 20_memory R89 to R92: the Gray code of its counter, its handshake, and that its cycles are
operations of the block. -/

namespace Sys2Proof.Machine

/-! ### The Gray code (20_memory R90) -/

/-- Each stage of `ungray` doubles the shift of the one before it. -/
theorem xor_shiftRight_twice {n : Nat} (v : BitVec n) (k : Nat) :
    (v ^^^ v >>> k) ^^^ ((v ^^^ v >>> k) >>> k) = v ^^^ v >>> (k + k) := by
  rw [BitVec.ushiftRight_xor_distrib, ← BitVec.shiftRight_add, BitVec.xor_assoc, ← BitVec.xor_assoc (v >>> k)]
  simp

theorem ungray_grayOf (v : BitVec 16) : ungray (grayOf v) = v := by
  simp only [ungray, grayOf, xor_shiftRight_twice]
  simp [BitVec.ushiftRight_eq_zero]

theorem grayOf_getLsbD (v : BitVec 16) (j : Nat) : (grayOf v).getLsbD j = (v.getLsbD j ^^ v.getLsbD (1 + j)) := by
  simp [grayOf]

theorem getLsbD_add_one {n : Nat} (v : BitVec n) {j : Nat} (hj : j < n) :
    (v + 1#n).getLsbD j = (v.getLsbD j ^^ decide (∀ k < j, v.getLsbD k = true)) := by
  rw [BitVec.getLsbD_add hj]
  cases j with
  | zero => simp [BitVec.carry_zero, hj]
  | succ j => simp [BitVec.carry_succ_one j v (by omega)]

/-- The carry of an increment ends at the first 0 bit, or at the top bit where every bit below it is 1. -/
theorem exists_carry_end (v : BitVec 16) :
    ∃ i < 16, (∀ k < i, v.getLsbD k = true) ∧ (i = 15 ∨ v.getLsbD i = false) := by
  have hend : ∃ i, i = 15 ∨ v.getLsbD i = false := ⟨15, .inl rfl⟩
  have hle : Nat.find hend ≤ 15 := Nat.find_min' hend (.inl rfl)
  refine ⟨Nat.find hend, Nat.lt_succ_of_le hle, fun k hk => ?_, Nat.find_spec hend⟩
  simpa using (not_or.mp (Nat.find_min hend hk)).2

/-- An increment flips the bits up to the end of its carry. -/
theorem getLsbD_add_one_of_carry_end {v : BitVec 16} {i : Nat} (hi : i < 16) (hones : ∀ k < i, v.getLsbD k = true)
    (hend : i = 15 ∨ v.getLsbD i = false) (j : Nat) : (v + 1).getLsbD j = (v.getLsbD j ^^ decide (j ≤ i)) := by
  by_cases hj : j < 16
  · rw [show v + 1 = v + 1#16 from rfl, getLsbD_add_one v hj]
    congr 1
    by_cases hji : j ≤ i
    · simpa [hji] using fun k hk => hones k (by omega)
    · have hzero : v.getLsbD i = false := hend.resolve_left (by omega)
      simpa [hji] using ⟨i, by omega, hzero⟩
  · have hji : ¬ j ≤ i := by omega
    simp [BitVec.getLsbD_of_ge _ _ (Nat.le_of_not_lt hj), hji]

/-- Neighbouring bits flip together but at the end of the carry, so there alone the Gray code changes. -/
theorem grayOf_add_one {v : BitVec 16} {i : Nat} (hi : i < 16) (hones : ∀ k < i, v.getLsbD k = true)
    (hend : i = 15 ∨ v.getLsbD i = false) : grayOf (v + 1) = grayOf v ^^^ BitVec.twoPow 16 i := by
  refine BitVec.eq_of_getLsbD_eq fun j _ => ?_
  have hedge : (decide (j ≤ i) ^^ decide (1 + j ≤ i)) = decide (i = j) := by
    rcases Nat.lt_trichotomy j i with hlt | heq | hgt
    · have h1 : 1 + j ≤ i := by omega
      simp [hlt.le, h1, hlt.ne']
    · simp [heq]
    · have h1 : ¬ 1 + j ≤ i := by omega
      simp [hgt, h1, hgt.ne]
  calc (grayOf (v + 1)).getLsbD j
      = ((v.getLsbD j ^^ v.getLsbD (1 + j)) ^^ (decide (j ≤ i) ^^ decide (1 + j ≤ i))) := by
        rw [grayOf_getLsbD, getLsbD_add_one_of_carry_end hi hones hend, getLsbD_add_one_of_carry_end hi hones hend]
        simp only [Bool.xor_assoc, Bool.xor_left_comm]
    _ = (grayOf v ^^^ BitVec.twoPow 16 i).getLsbD j := by simp [hedge, hi, grayOf_getLsbD, BitVec.getLsbD_twoPow]

/-- Settles O56, by the xor-shift that each stage of `ungray` doubles and by the one bit in which an increment moves the code. -/
theorem grayCodeOfCounter : Obligations.GrayCodeOfCounter := by
  unfold Obligations.GrayCodeOfCounter
  refine ⟨ungray_grayOf, fun v => ?_⟩
  obtain ⟨i, hi, hones, hend⟩ := exists_carry_end v
  exact ⟨i, hi, grayOf_add_one hi hones hend⟩

/-! ### The handshake (20_memory R91) -/

/-- How many toggles are in flight along the bits of the handshake, in the order of `Chip.handshake`. -/
def togglesInFlight (req reqSync1 reqSync2 ack ackSync1 ackSync2 : Bool) : Nat :=
  List.count true [req != reqSync1, reqSync1 != reqSync2, reqSync2 != ack, ack != ackSync1, ackSync1 != ackSync2]

theorem Chip.handshake_iff {c : Chip} :
    c.handshake ↔ togglesInFlight c.req c.reqSync1 c.reqSync2 c.ack c.ackSync1 c.ackSync2 ≤ 1 := Iff.rfl

/-- With at most one toggle in flight, equal ends mean none. -/
theorem toggles_at_rest : ∀ req s1 s2 ack a1 a2 : Bool, togglesInFlight req s1 s2 ack a1 a2 ≤ 1 → req = a2 →
    s1 = req ∧ s2 = req ∧ ack = req ∧ a1 = req := by decide

/-- The toggle the engine sees is the one in flight, so the request has not moved since. -/
theorem toggle_seen_by_engine : ∀ req s1 s2 ack a1 a2 : Bool, togglesInFlight req s1 s2 ack a1 a2 ≤ 1 → s2 ≠ ack →
    s2 = req := by decide

/-- The engine's stages take the request's next value, and the acknowledge takes the second stage's. -/
theorem togglesInFlight_engine : ∀ req s1 s2 ack a1 a2 : Bool, togglesInFlight req s1 s2 ack a1 a2 ≤ 1 →
    togglesInFlight req req s1 s2 a1 a2 ≤ 1 := by decide

theorem togglesInFlight_decoder : ∀ req s1 s2 ack a1 a2 : Bool, togglesInFlight req s1 s2 ack a1 a2 ≤ 1 →
    togglesInFlight req s1 s2 ack ack a1 ≤ 1 := by decide

/-- A new request is toggled only at rest, where it is the one toggle in flight. -/
theorem togglesInFlight_request (b : Bool) : togglesInFlight (!b) b b b b b ≤ 1 := by
  cases b <;> decide

theorem Chip.decoderReady_iff {c : Chip} : c.decoderReady = true ↔ c.req = c.ackSync2 := by
  simp [Chip.decoderReady]

theorem Chip.handoffSeen_iff {c : Chip} : c.handoffSeen = true ↔ c.reqSync2 ≠ c.ack := by
  simp [Chip.handoffSeen]

/-- Where the decoder is ready every bit of the handshake is the request's. -/
theorem Chip.handshake.at_rest {c : Chip} (h : c.handshake) (hready : c.decoderReady = true) :
    c.reqSync1 = c.req ∧ c.reqSync2 = c.req ∧ c.ack = c.req ∧ c.ackSync1 = c.req :=
  toggles_at_rest _ _ _ _ _ _ h (Chip.decoderReady_iff.mp hready)

theorem Chip.handshake.pend_of_ready {c : Chip} (h : c.handshake) (hready : c.decoderReady = true) : c.pend = none := by
  obtain ⟨-, -, hack, -⟩ := h.at_rest hready
  simp [Chip.pend, hack]

theorem Chip.handshake.reqSync2_of_seen {c : Chip} (h : c.handshake) (hseen : c.handoffSeen = true) : c.reqSync2 = c.req :=
  toggle_seen_by_engine _ _ _ _ _ _ h (Chip.handoffSeen_iff.mp hseen)

theorem Chip.handshake.pend_of_seen {c : Chip} (h : c.handshake) (hseen : c.handoffSeen = true) : c.pend = some c.hold := by
  have hne : c.req ≠ c.ack := h.reqSync2_of_seen hseen ▸ Chip.handoffSeen_iff.mp hseen
  simp [Chip.pend, hne]

/-! ### What each cycle writes -/

/-- The acknowledge toggles where it differs from the request the engine sees, so it becomes that request. -/
theorem Chip.ack_next (c : Chip) : (if c.handoffSeen then !c.ack else c.ack) = c.reqSync2 := by
  cases h2 : c.reqSync2 <;> cases ha : c.ack <;> simp [Chip.handoffSeen, h2, ha]

theorem Chip.clkEng_of_not_run {c : Chip} (hrun : c.engRun = false) (tick : Bool) :
    c.clkEng tick = { c with engRun := true } := by
  simp [Chip.clkEng, hrun]

theorem Chip.clkEng_of_run {c : Chip} (hrun : c.engRun = true) (tick : Bool) :
    c.clkEng tick = { c.putEngine (c.engineNext tick) with reqSync1 := c.req, reqSync2 := c.reqSync1, ack := c.reqSync2 } := by
  simp [Chip.clkEng, hrun, Chip.ack_next]

theorem Chip.clkDec_of_not_run {c : Chip} (hrun : c.decRun = false) (sig : Level) (set clr : Bool) :
    c.clkDec sig set clr = { c with decRun := true } := by
  simp [Chip.clkDec, hrun]

theorem Chip.clkDec_of_run {c : Chip} (hrun : c.decRun = true) (sig : Level) (set clr : Bool) :
    c.clkDec sig set clr =
      { c.putDecoder (c.decoderNext set clr) with
        edges := if c.decoderReady then (c.edgesSeen set clr).tail else c.edgesSeen set clr
        sigPrev := c.sigSync2
        sigSync2 := c.sigSync1
        sigSync1 := sig
        graySync2 := c.graySync1
        graySync1 := c.mscGray
        ackSync2 := c.ackSync1
        ackSync1 := c.ack } := by
  simp [Chip.clkDec, hrun]

theorem strobes_eq (set clr : Bool) (s : State) : strobes set clr s = s.setDecEn (!clr && (set || s.decEn)) := by
  cases set <;> cases clr <;> rfl

/-- The state in which the decoder's cycle takes its edge: the strobes have acted, and nothing is pending. -/
def Chip.afterStrobes (set clr : Bool) (c : Chip) : State := strobes set clr { c.view (ungray c.graySync2) with pend := none }

@[simp] theorem Chip.afterStrobes_pend (c : Chip) (set clr : Bool) : (c.afterStrobes set clr).pend = none := by
  simp [Chip.afterStrobes, strobes_eq]

@[simp] theorem Chip.afterStrobes_waiting (c : Chip) (set clr : Bool) : (c.afterStrobes set clr).waiting = [] := by
  simp [Chip.afterStrobes, strobes_eq, Chip.view]

/-- A decoder cycle takes the oldest edge where the decoder is ready and an edge waits, and else acts on the strobes alone. -/
theorem Chip.decoderNext_cases (c : Chip) (set clr : Bool) :
    (∃ l rest, c.decoderReady = true ∧ c.edgesSeen set clr = l :: rest ∧
      c.decoderNext set clr = (c.afterStrobes set clr).handleEdge l) ∨
    ((c.decoderReady = false ∨ c.edgesSeen set clr = []) ∧ c.decoderNext set clr = c.afterStrobes set clr) := by
  unfold Chip.decoderNext
  split
  next l rest hready hedges => exact .inl ⟨l, rest, hready, hedges, rfl⟩
  next hnone =>
    refine .inr ⟨?_, rfl⟩
    cases hready : c.decoderReady with
    | false => exact .inl rfl
    | true =>
      cases hedges : c.edgesSeen set clr with
      | nil => exact .inr rfl
      | cons l rest => exact (hnone l rest hready hedges).elim

theorem Chip.decoderNext_of_not_ready {c : Chip} (hready : c.decoderReady = false) (set clr : Bool) :
    c.decoderNext set clr = c.afterStrobes set clr := by
  rcases c.decoderNext_cases set clr with ⟨l, rest, hready', -, -⟩ | ⟨-, heq⟩
  · simp [hready] at hready'
  · exact heq

theorem Chip.clkEng_keeps_decoder (c : Chip) (tick : Bool) :
    (c.clkEng tick).decEn = c.decEn ∧ (c.clkEng tick).lvl = c.lvl ∧ (c.clkEng tick).lem = c.lem ∧ (c.clkEng tick).cnt = c.cnt ∧
      (c.clkEng tick).f = c.f ∧ (c.clkEng tick).hold = c.hold ∧ (c.clkEng tick).req = c.req := by
  cases hrun : c.engRun with
  | false => simp [Chip.clkEng_of_not_run hrun]
  | true => simp [Chip.clkEng_of_run hrun, Chip.putEngine]

theorem Chip.clkDec_keeps_of_not_ready {c : Chip} (hready : c.decoderReady = false) (sig : Level) (set clr : Bool) :
    (c.clkDec sig set clr).lvl = c.lvl ∧ (c.clkDec sig set clr).lem = c.lem ∧ (c.clkDec sig set clr).cnt = c.cnt ∧
      (c.clkDec sig set clr).f = c.f ∧ (c.clkDec sig set clr).hold = c.hold ∧ (c.clkDec sig set clr).req = c.req := by
  cases hrun : c.decRun with
  | false => simp [Chip.clkDec_of_not_run hrun]
  | true =>
    simp [Chip.clkDec_of_run hrun, Chip.putDecoder, Chip.decoderNext_of_not_ready hready, Chip.afterStrobes, strobes_eq,
      Chip.view]

/-! ### The handshake is kept -/

theorem Chip.handshake.clkEng {c : Chip} (h : c.handshake) (tick : Bool) : (c.clkEng tick).handshake := by
  cases hrun : c.engRun with
  | false => rwa [Chip.clkEng_of_not_run hrun]
  | true =>
    rw [Chip.clkEng_of_run hrun]
    exact togglesInFlight_engine _ _ _ _ _ _ h

theorem Chip.handshake.clkDec {c : Chip} (h : c.handshake) (sig : Level) (set clr : Bool) :
    (c.clkDec sig set clr).handshake := by
  cases hrun : c.decRun with
  | false => rwa [Chip.clkDec_of_not_run hrun]
  | true =>
    rw [Chip.clkDec_of_run hrun, Chip.handshake_iff]
    simp only [Chip.putDecoder]
    cases hissued : (c.decoderNext set clr).pend.isSome with
    | false => exact togglesInFlight_decoder _ _ _ _ _ _ h
    | true =>
      cases hready : c.decoderReady with
      | false => simp [Chip.decoderNext_of_not_ready hready] at hissued
      | true =>
        obtain ⟨hs1, hs2, hack, ha1⟩ := h.at_rest hready
        rw [hs1, hs2, hack, ha1]
        exact togglesInFlight_request c.req

/-- Settles O57: each clock's cycle moves the toggle along the chain, and the reset state has none. -/
theorem handshakeKept : Obligations.HandshakeKept := by
  unfold Obligations.HandshakeKept
  have hreset : chipReset.handshake := by rw [Chip.handshake_iff]; decide
  refine ⟨⟨hreset, rfl, rfl, rfl⟩, fun c e h => ?_⟩
  cases e with
  | clkEng tick => exact h.clkEng tick
  | clkDec sig set clr => exact h.clkDec sig set clr
  | rstLow => exact hreset

/-- Settles O58: the engine writes none of these registers, and the decoder writes them only where it is ready, with no request
outstanding. -/
theorem holdingRegisterStable : Obligations.HoldingRegisterStable := by
  unfold Obligations.HoldingRegisterStable
  intro c e h hreset
  cases e with
  | clkEng tick =>
    obtain ⟨-, hlvl, hlem, hcnt, hf, hhold, hreq⟩ := c.clkEng_keeps_decoder tick
    exact ⟨fun _ => hhold, fun _ => ⟨hlvl, hlem, hcnt, hf, hreq⟩⟩
  | clkDec sig set clr =>
    refine ⟨fun houtstanding => ?_, fun hready => ?_⟩
    · have hready : c.decoderReady = false := Bool.eq_false_iff.mpr fun hready => by
        obtain ⟨-, -, hack, -⟩ := h.at_rest hready
        exact houtstanding hack.symm
      obtain ⟨-, -, -, -, hhold, -⟩ := Chip.clkDec_keeps_of_not_ready hready sig set clr
      exact hhold
    · obtain ⟨hlvl, hlem, hcnt, hf, -, hreq⟩ := Chip.clkDec_keeps_of_not_ready hready sig set clr
      exact ⟨hlvl, hlem, hcnt, hf, hreq⟩
  | rstLow => exact absurd rfl hreset

/-! ### An engine cycle (20_memory R92) -/

theorem runOps_append_of_next {ops later : List Instr} {s u : State} (hrun : runOps ops s = .next u) :
    runOps (ops ++ later) s = runOps later u := by
  induction ops generalizing s with
  | nil =>
    rw [runOps, Host.Outcome.next.injEq] at hrun
    rw [hrun, List.nil_append]
  | cons i ops ih =>
    obtain ⟨v, hexec, hrest⟩ := runOps_cons_eq_next_iff.mp hrun
    simp only [List.cons_append, runOps, hexec]
    exact ih hrest

/-- An operation taken only where `b` holds. -/
theorem runOps_if {i : Instr} {b : Bool} {s t : State} (hexec : b = true → exec i s = .next t) :
    runOps (if b then [i] else []) s = .next (if b then t else s) := by
  cases b with
  | false => rfl
  | true => simp [runOps, hexec]

theorem Chip.engineNext_eq (c : Chip) (tick : Bool) :
    c.engineNext tick =
      let ticked := if tick then (c.view c.msc).tick else c.view c.msc
      if c.handoffSeen then ticked.applyHandoff c.hold else ticked := by
  unfold Chip.engineNext engineOps
  cases c.handoffSeen <;> rfl

/-- An engine cycle runs its operations on the registers it starts with. -/
theorem Chip.handshake.runOps_engine {c : Chip} (h : c.handshake) (tick : Bool) :
    runOps ((if tick then [.tick] else []) ++ (if c.handoffSeen then [.handoff (pack c.hold)] else [])) (c.view c.msc) =
      .next (c.engineNext tick) := by
  rw [runOps_append_of_next (runOps_if fun _ => exec_tick_eq _), Chip.engineNext_eq]
  refine runOps_if fun hseen => exec_handoff_of_pend ?_ _
  have hpend : (c.view c.msc).pend = some c.hold := h.pend_of_seen hseen
  cases tick <;> simpa using hpend

theorem Chip.engineNext_keeps (c : Chip) (tick : Bool) :
    sameDecoder (c.view c.msc) (c.engineNext tick) ∧ sameEnvironment (c.view c.msc) (c.engineNext tick) := by
  unfold sameDecoder sameEnvironment
  rw [Chip.engineNext_eq]
  cases tick <;> cases c.handoffSeen <;> simp

theorem Chip.engineNext_trace (c : Chip) (tick : Bool) :
    (c.engineNext tick).trace = if tick && refreshInstant c.wc.nextMilli.millisecond then [.refresh] else [] := by
  rw [Chip.engineNext_eq]
  cases tick <;> cases c.handoffSeen <;> simp [Chip.view]

/-- The handoff is pending no more once the engine has seen it: its acknowledge is the request. -/
theorem Chip.handshake.pend_clkEng {c : Chip} (h : c.handshake) (hrun : c.engRun = true) (tick : Bool) :
    (c.clkEng tick).pend = (c.engineNext tick).pend := by
  have hclk : (c.clkEng tick).pend = if c.req = c.reqSync2 then none else some c.hold := by
    rw [Chip.clkEng_of_run hrun]
    rfl
  rw [hclk, Chip.engineNext_eq]
  cases hseen : c.handoffSeen with
  | true => simp [h.reqSync2_of_seen hseen]
  | false =>
    have hack : c.reqSync2 = c.ack := by simpa [Chip.handoffSeen] using hseen
    cases tick <;> simp [hack, Chip.view, Chip.pend]

theorem Chip.handshake.view_clkEng {c : Chip} (h : c.handshake) (hrun : c.engRun = true) (tick : Bool) :
    (c.clkEng tick).view (c.engineNext tick).msc = { c.engineNext tick with trace := [] } := by
  obtain ⟨⟨hdecEn, hlvl, hlem, hcnt, hf⟩, hinput, hwaiting, hturns, hissuer⟩ := c.engineNext_keeps tick
  rw [Chip.view, h.pend_clkEng hrun, Chip.clkEng_of_run hrun, State.mk.injEq]
  simp [Chip.putEngine, hdecEn, hlvl, hlem, hcnt, hf, hinput, hwaiting, hturns, hissuer, Chip.view]

theorem Chip.engineOut_of_run {c : Chip} (hrun : c.engRun = true) (tick : Bool) :
    c.engineOut tick =
      { ms := (c.engineNext tick).msc
        wc := pack (c.engineNext tick).wc
        synced := (c.engineNext tick).synced
        refresh := decide (.refresh ∈ (c.engineNext tick).trace) } := by
  simp [Chip.engineOut, Chip.clkEng_of_run hrun, Chip.putEngine, hrun]

/-- Settles O59: the state after the cycle's operations is the one `clkEng` writes back. -/
theorem engineCycleRefines : Obligations.EngineCycleRefines := by
  unfold Obligations.EngineCycleRefines
  intro c tick h hrun
  refine ⟨c.engineNext tick, h.runOps_engine tick, h.view_clkEng hrun tick, ?_, ?_, c.engineOut_of_run hrun tick,
    fun htick hseen => ?_⟩
  · rw [Chip.clkEng_of_run hrun, Chip.putEngine]
  · rw [Chip.clkEng_of_run hrun, Chip.putEngine]
  · have hnext : c.engineNext tick = (c.view c.msc).tick.applyHandoff c.hold := by simp [Chip.engineNext_eq, htick, hseen]
    refine ⟨by simp [hnext, Chip.view], by simp [hnext], by simp [hnext], by simp [hnext], ?_⟩
    rw [Chip.engineOut_of_run hrun, Chip.engineNext_trace, ← refreshInstant_iff]
    simp [htick]

/-! ### A decoder cycle (20_memory R89 to R91) -/

theorem runOps_strobes (set clr : Bool) (s : State) :
    runOps ((if set then [.decen] else []) ++ (if clr then [.decdis] else [])) s = .next (strobes set clr s) := by
  rw [runOps_append_of_next (runOps_if fun _ => exec_decen_eq s)]
  exact runOps_if fun _ => exec_decdis_eq _

theorem Chip.handshake.afterStrobes_of_ready {c : Chip} (h : c.handshake) (hready : c.decoderReady = true) (set clr : Bool) :
    strobes set clr (c.view (ungray c.graySync2)) = c.afterStrobes set clr := by
  rw [Chip.afterStrobes]
  simp only [Chip.view, h.pend_of_ready hready]

/-- A decoder cycle runs its operations on the registers it starts with; a pending handoff stays until the decoder is ready. -/
theorem Chip.handshake.runOps_decoder {c : Chip} (h : c.handshake) (set clr : Bool) :
    runOps ((if set then [.decen] else []) ++ (if clr then [.decdis] else []) ++
        (if c.decoderReady then ((c.edgesSeen set clr).head?.map Instr.edge).toList else [])) (c.view (ungray c.graySync2)) =
      .next { c.decoderNext set clr with
        pend := if c.decoderReady then (c.decoderNext set clr).pend else c.pend } := by
  rw [runOps_append_of_next (runOps_strobes set clr _)]
  rcases c.decoderNext_cases set clr with ⟨l, rest, hready, hedges, hnext⟩ | ⟨hnone, hnext⟩
  · have hexec : exec (.edge l) (c.afterStrobes set clr) = .next (c.decoderNext set clr) := by
      rw [hnext]
      exact exec_edge_of_none_waiting (c.afterStrobes_pend set clr) (c.afterStrobes_waiting set clr) l
    rw [h.afterStrobes_of_ready hready]
    simp [hready, hedges, runOps, hexec]
  · rw [hnext]
    cases hready : c.decoderReady with
    | true =>
      have hempty : c.edgesSeen set clr = [] := hnone.resolve_left (by simp [hready])
      rw [h.afterStrobes_of_ready hready]
      simp only [hempty, List.head?_nil, Option.map_none, Option.toList_none, ite_self, if_true, runOps]
    | false => simp [runOps, Chip.afterStrobes, strobes_eq, Chip.view, State.setDecEn]

theorem Chip.decoderNext_keeps (c : Chip) (set clr : Bool) :
    sameEngine (c.view (ungray c.graySync2)) (c.decoderNext set clr) ∧
      sameEnvironment (c.view (ungray c.graySync2)) (c.decoderNext set clr) ∧ (c.decoderNext set clr).trace = [] := by
  have hstrobes : sameEngine (c.view (ungray c.graySync2)) (c.afterStrobes set clr) ∧
      sameEnvironment (c.view (ungray c.graySync2)) (c.afterStrobes set clr) ∧ (c.afterStrobes set clr).trace = [] := by
    simp [sameEngine, sameEnvironment, Chip.afterStrobes, strobes_eq, Chip.view]
  rcases c.decoderNext_cases set clr with ⟨l, rest, -, -, hnext⟩ | ⟨-, hnext⟩
  · obtain ⟨hinput, hwaiting, hturns, hissuer⟩ := (c.afterStrobes set clr).handleEdge_sameEnvironment l
    simpa [sameEngine, sameEnvironment, hnext, hinput, hwaiting, hturns, hissuer] using hstrobes
  · rwa [hnext]

/-- A handoff the cycle issues becomes pending by the toggle of the request; one that is outstanding stays as it is. -/
theorem Chip.handshake.pend_clkDec {c : Chip} (h : c.handshake) (hrun : c.decRun = true) (sig : Level) (set clr : Bool) :
    (c.clkDec sig set clr).pend = if c.decoderReady then (c.decoderNext set clr).pend else c.pend := by
  cases hready : c.decoderReady with
  | true =>
    obtain ⟨-, -, hack, -⟩ := h.at_rest hready
    rw [Chip.clkDec_of_run hrun, Chip.pend, Chip.putDecoder]
    cases hissued : (c.decoderNext set clr).pend <;> simp [hack]
  | false =>
    obtain ⟨-, -, -, -, hhold, hreq⟩ := Chip.clkDec_keeps_of_not_ready hready sig set clr
    have hack : (c.clkDec sig set clr).ack = c.ack := by rw [Chip.clkDec_of_run hrun, Chip.putDecoder]
    simp [Chip.pend, hhold, hreq, hack]

theorem Chip.view_clkDec {c : Chip} (hrun : c.decRun = true) (sig : Level) (set clr : Bool) :
    (c.clkDec sig set clr).view (ungray c.graySync2) =
      { c.decoderNext set clr with pend := (c.clkDec sig set clr).pend } := by
  obtain ⟨⟨hwc, hmsc, hsynced, hlsm⟩, ⟨hinput, hwaiting, hturns, hissuer⟩, htrace⟩ := c.decoderNext_keeps set clr
  rw [Chip.view, State.mk.injEq]
  simp [Chip.clkDec_of_run hrun, Chip.putDecoder, hwc, hmsc, hsynced, hlsm, hinput, hwaiting, hturns, hissuer, htrace, Chip.view]

/-- Settles O60: the state after the cycle's operations is the one `clkDec` writes back. -/
theorem decoderCycleRefines : Obligations.DecoderCycleRefines := by
  unfold Obligations.DecoderCycleRefines
  intro c sig set clr h hrun
  exact ⟨_, h.runOps_decoder set clr, by rw [Chip.view_clkDec hrun, h.pend_clkDec hrun]⟩

end Sys2Proof.Machine

/-! The encoding of 30_encoding: what decoding an operation word does, test by test (R105), that the bytes of an operation and what
decoding reads determine each other (R106), which items are refused and the run with them (R112), and the packed wallclock word
(R115, R116). -/

namespace Sys2Proof

/-! ### The fields of an operation word, and the bytes of an operand (R102, R103) -/

@[simp] theorem rsvOf_opWord (opc : BitVec 4) (l : Bool) : rsvOf (opWord opc l) = 0 := by
  revert opc l; decide

@[simp] theorem opcOf_opWord (opc : BitVec 4) (l : Bool) : opcOf (opWord opc l) = opc := by
  revert opc l; decide

@[simp] theorem levelBitOf_opWord (opc : BitVec 4) (l : Bool) : levelBitOf (opWord opc l) = l := by
  revert opc l; decide

/-- With its reserved bits zero, a word holds nothing but a code and a level. -/
theorem opWord_opcOf_levelBitOf {op : Byte} (hrsv : rsvOf op = 0) : opWord (opcOf op) (levelBitOf op) = op := by
  have hlevel : BitVec.ofBool (levelBitOf op) = op.extractLsb' 4 1 := by
    ext i hi
    obtain rfl : i = 0 := by omega
    simp [levelBitOf]
  rw [opWord, ← hrsv, hlevel, rsvOf, opcOf]
  simp (disch := rfl) only [BitVec.extractLsb'_append_extractLsb'_eq_extractLsb']
  exact BitVec.extractLsb'_eq_self

@[simp] theorem Level.ofBit_toBit (l : Level) : Level.ofBit l.toBit = l := by
  cases l <;> rfl

@[simp] theorem Level.toBit_ofBit (b : Bool) : (Level.ofBit b).toBit = b := by
  cases b <;> rfl

/-- Each byte of a word is adjacent to the one before it, so the eight together are the word. -/
theorem packedOfBytes_byteOfPacked (x : Packed) :
    packedOfBytes (byteOfPacked x 0) (byteOfPacked x 1) (byteOfPacked x 2) (byteOfPacked x 3) (byteOfPacked x 4)
      (byteOfPacked x 5) (byteOfPacked x 6) (byteOfPacked x 7) = x := by
  unfold packedOfBytes byteOfPacked
  simp (disch := rfl) only [BitVec.extractLsb'_append_extractLsb'_eq_extractLsb']
  exact BitVec.extractLsb'_eq_self

theorem encode_handoff_packedOfBytes (b0 b1 b2 b3 b4 b5 b6 b7 : Byte) :
    encode (.handoff (packedOfBytes b0 b1 b2 b3 b4 b5 b6 b7)) = [opWord 0x5 false, b0, b1, b2, b3, b4, b5, b6, b7] := by
  simp (disch := decide) only [encode, packedOfBytes, byteOfPacked, BitVec.extractLsb'_append_eq_of_le,
    BitVec.extractLsb'_append_eq_of_add_le, Nat.reduceMul, Nat.reduceSub, BitVec.extractLsb'_eq_self]

/-! ### The tests of decoding, in their order (R105) -/

section Tests

variable {op : Byte} (rest : List Byte)

theorem decode_of_rsvOf_ne_zero (hrsv : rsvOf op ≠ 0) : decode (op :: rest) = .error (.reservedWord op) := by
  rw [decode, if_pos hrsv]

theorem decode_of_opcOf_eq_one (hrsv : rsvOf op = 0) (hopc : opcOf op = 1) :
    decode (op :: rest) = .ok (.edge (Level.ofBit (levelBitOf op)), rest) := by
  rw [decode, if_neg (not_not.mpr hrsv), if_pos hopc]

theorem decode_of_levelBitOf_true (hrsv : rsvOf op = 0) (hopc : opcOf op ≠ 1) (hlevel : levelBitOf op = true) :
    decode (op :: rest) = .error (.reservedWord op) := by
  rw [decode, if_neg (not_not.mpr hrsv), if_neg hopc, if_pos hlevel]

theorem decode_eq_decodeOpc (hrsv : rsvOf op = 0) (hopc : opcOf op ≠ 1) (hlevel : levelBitOf op = false) :
    decode (op :: rest) = decodeOpc op rest := by
  rw [decode, if_neg (not_not.mpr hrsv), if_neg hopc, hlevel, if_neg Bool.false_ne_true]

/-- A HANDOFF word without its operand is no reserved word. -/
theorem decodeOperand_ne_reserved : decodeOperand rest ≠ .error (.reservedWord op) := by
  unfold decodeOperand
  split <;> simp

/-- Code 1 is EDGE's, which an earlier test has taken. -/
theorem decodeOpc_eq_reserved_iff (hopc : opcOf op ≠ 1) :
    decodeOpc op rest = .error (.reservedWord op) ↔ 8 < (opcOf op).toNat := by
  have hne : (opcOf op).toNat ≠ 1 := fun h => hopc (BitVec.eq_of_toNat_eq h)
  unfold decodeOpc
  split
  case h_5 hcode => simp [hcode, decodeOperand_ne_reserved]
  case h_9 => exact ⟨fun _ => by grind, fun _ => rfl⟩
  all_goals
    rename_i hcode
    simp [hcode]

end Tests

/-- The ten words of R105. -/
def operationWords : List Byte := [0x00, 0x01, 0x11, 0x02, 0x03, 0x04, 0x05, 0x06, 0x07, 0x08]

theorem mem_operationWords_iff {op : Byte} :
    op ∈ operationWords ↔ rsvOf op = 0 ∧ (opcOf op = 1 ∨ levelBitOf op = false ∧ (opcOf op).toNat ≤ 8) := by
  have hfields : ∀ op ∈ operationWords,
      rsvOf op = 0 ∧ (opcOf op = 1 ∨ levelBitOf op = false ∧ (opcOf op).toNat ≤ 8) := by decide
  have hedge : ∀ l, opWord 1 l ∈ operationWords := by decide
  have hcode : ∀ opc : BitVec 4, opc.toNat ≤ 8 → opWord opc false ∈ operationWords := by decide
  refine ⟨hfields op, fun ⟨hrsv, hcases⟩ => ?_⟩
  rw [← opWord_opcOf_levelBitOf hrsv]
  rcases hcases with hopc | ⟨hlevel, hle⟩
  · rw [hopc]
    exact hedge _
  · rw [hlevel]
    exact hcode _ hle

/-- A word outside the ten fails one of the four tests, and a word among them fails none. -/
theorem decode_eq_reserved_iff {op : Byte} (rest : List Byte) :
    decode (op :: rest) = .error (.reservedWord op) ↔ op ∉ operationWords := by
  rw [mem_operationWords_iff]
  by_cases hrsv : rsvOf op = 0
  case neg => exact iff_of_true (decode_of_rsvOf_ne_zero rest hrsv) fun hspells => hrsv hspells.left
  by_cases hopc : opcOf op = 1
  case pos => simp only [decode_of_opcOf_eq_one rest hrsv hopc, hrsv, hopc, reduceCtorEq, true_or, and_self, not_true]
  cases hlevel : levelBitOf op with
  | true => simp only [decode_of_levelBitOf_true rest hrsv hopc hlevel, hrsv, hopc, reduceCtorEq, false_and, or_self, and_false,
      not_false_eq_true]
  | false => simp only [decode_eq_decodeOpc rest hrsv hopc hlevel, decodeOpc_eq_reserved_iff rest hopc, hrsv, hopc, true_and,
      false_or, Nat.not_le]

/-! ### Decoding inverts encoding (R106) -/

theorem decode_edgeWord (l : Level) (rest : List Byte) : decode (opWord 0x1 l.toBit :: rest) = .ok (.edge l, rest) := by
  rw [decode_of_opcOf_eq_one rest (rsvOf_opWord ..) (opcOf_opWord ..), levelBitOf_opWord, Level.ofBit_toBit]

theorem decode_opWord {opc : BitVec 4} (hopc : opc ≠ 1) (rest : List Byte) :
    decode (opWord opc false :: rest) = decodeOpc (opWord opc false) rest :=
  decode_eq_decodeOpc rest (rsvOf_opWord ..) (by rwa [opcOf_opWord]) (levelBitOf_opWord ..)

/-- HANDOFF's word and eight operand bytes are read back whatever the operand's reserved bits hold, so no operation is left out. -/
theorem decode_encode (i : Instr) (rest : List Byte) : decode (encode i ++ rest) = .ok (i, rest) := by
  cases i with
  | edge l => exact decode_edgeWord l rest
  | handoff x =>
    rw [← packedOfBytes_byteOfPacked x, encode_handoff_packedOfBytes]
    exact decode_opWord (by decide) _
  | tick | getms | snap | syncq | decen | decdis | reset => exact decode_opWord (by decide) rest

/-- Settles O1: HANDOFF's reserved bits are no condition here. -/
theorem decodeEncodeAgree : Obligations.DecodeEncodeAgree := by
  unfold Obligations.DecodeEncodeAgree
  exact fun i rest _ => decode_encode i rest

/-! ### What decodes to an operation is its own encoding (R105, R106) -/

theorem encode_of_decodeOperand {later rest : List Byte} {i : Instr} (h : decodeOperand later = .ok (i, rest)) :
    opWord 0x5 false :: later = encode i ++ rest := by
  unfold decodeOperand at h
  split at h
  next b0 b1 b2 b3 b4 b5 b6 b7 tail =>
    cases h
    rw [encode_handoff_packedOfBytes]
    rfl
  next => cases h

theorem encode_of_decodeOpc {opc : BitVec 4} {later rest : List Byte} {i : Instr}
    (h : decodeOpc (opWord opc false) later = .ok (i, rest)) : opWord opc false :: later = encode i ++ rest := by
  have hopc : opc = BitVec.ofNat 4 opc.toNat := by simp
  rw [decodeOpc, opcOf_opWord] at h
  split at h
  case h_5 hcode =>
    rw [hopc, hcode]
    exact encode_of_decodeOperand h
  case h_9 => cases h
  all_goals
    rename_i hcode
    cases h
    rw [hopc, hcode]
    rfl

theorem encode_of_decode {bytes rest : List Byte} {i : Instr} (h : decode bytes = .ok (i, rest)) : bytes = encode i ++ rest := by
  cases bytes with
  | nil => cases h
  | cons op later =>
    by_cases hrsv : rsvOf op = 0
    case neg => cases (decode_of_rsvOf_ne_zero later hrsv).symm.trans h
    by_cases hopc : opcOf op = 1
    case pos =>
      cases (decode_of_opcOf_eq_one later hrsv hopc).symm.trans h
      rw [encode, Level.toBit_ofBit, ← hopc, opWord_opcOf_levelBitOf hrsv]
      rfl
    cases hlevel : levelBitOf op with
    | true => cases (decode_of_levelBitOf_true later hrsv hopc hlevel).symm.trans h
    | false =>
      have hword : opWord (opcOf op) false = op := hlevel ▸ opWord_opcOf_levelBitOf hrsv
      rw [decode_eq_decodeOpc later hrsv hopc hlevel, ← hword] at h
      rw [← hword]
      exact encode_of_decodeOpc h

/-- Settles O2: the word's fields give the word back, and the operand's bytes give the operand back. -/
theorem oneSpellingPerOperation : Obligations.OneSpellingPerOperation := by
  unfold Obligations.OneSpellingPerOperation
  exact fun _ _ _ h => encode_of_decode h

/-- Settles O3: the tests one by one, the ten words as those that fail none, and the operation of each. -/
theorem wordsThatSpellOperations : Obligations.WordsThatSpellOperations := by
  unfold Obligations.WordsThatSpellOperations
  refine ⟨fun op rest => ⟨decode_of_rsvOf_ne_zero rest, decode_of_opcOf_eq_one rest, decode_of_levelBitOf_true rest, ?_, ?_⟩,
    fun _ => rfl, fun _ => rfl, fun _ => rfl, fun _ => rfl, ?_, fun _ => rfl, fun _ => rfl, fun _ => rfl⟩
  · intro hrsv hopc hlevel hlarge
    exact (decode_eq_decodeOpc rest hrsv hopc hlevel).trans ((decodeOpc_eq_reserved_iff rest hopc).mpr hlarge)
  · exact (decode_eq_reserved_iff rest).not_left
  · exact fun b0 b1 b2 b3 b4 b5 b6 b7 => ⟨packedOfBytes b0 b1 b2 b3 b4 b5 b6 b7, fun _ => rfl⟩

/-- Settles O4: decoding these nine byte strings is evaluation. -/
theorem writtenWordsDecode : Obligations.WrittenWordsDecode := by
  unfold Obligations.WrittenWordsDecode
  exact ⟨rfl, rfl, rfl, rfl, rfl, rfl, rfl, rfl, rfl⟩

end Sys2Proof

namespace Sys2Proof.Machine

/-! ### Refused items, and the run with them (R112) -/

theorem run_of_step_refused {s : State} {r : Refusal} (hstep : step s = .refused r) (k : Nat) :
    core.run (k + 1) s = .refused r := by
  have hcore : core.step s = .refused r := hstep
  simp only [Host.Core.run, hcore]

theorem step_of_unreadable {s t : State} {q : Item} {r : Refusal} (hturn : s.nextTurn = .presented q t)
    (hread : readItem q = .error r) : step s = .refused r := by
  simp [step, hturn, hread]

theorem State.pend_of_presented {s t : State} {q : Item} (hturn : s.nextTurn = .presented q t) : t.pend = s.pend := by
  rcases s.nextTurn_cases with ⟨hidle, -⟩ | ⟨l, ls, ts, -, -, hwaiting⟩ | ⟨q', rest, ts, -, hpresented⟩
  · cases hidle.symm.trans hturn
  · cases hwaiting.symm.trans hturn
  · cases hpresented.symm.trans hturn
    rfl

theorem readItem_reserved {q : Item} {op : Byte} (hdecode : decode q.bytes = .error (.reservedWord op)) :
    readItem q = .error (.reservedWord op) := by
  simp [readItem, hdecode]

theorem decode_bytes_of_eq_encode {q : Item} {i : Instr} (hbytes : q.bytes = encode i) : decode q.bytes = .ok (i, []) := by
  rw [hbytes, ← List.append_nil (encode i)]
  exact decode_encode i []

theorem mayIssue_handoff_iff {a : Agent} {x : Packed} : mayIssue a (.handoff x) = true ↔ a = .synchroniser := by
  simp [mayIssue]

/-- Settles O9: the first two are refused as they are read, the third by HANDOFF's meaning, and a run stops at a refused step. -/
theorem refusedItems : Obligations.RefusedItems := by
  unfold Obligations.RefusedItems
  intro s t q hturn
  refine ⟨fun op rest hbytes hop => ?_, fun x hbytes hagent => ?_, fun x hbytes hagent hpend => ?_⟩
  · have hdecode : decode q.bytes = .error (.reservedWord op) := hbytes ▸ (decode_eq_reserved_iff rest).mpr hop
    have hstep := step_of_unreadable hturn (readItem_reserved hdecode)
    exact ⟨hstep, run_of_step_refused hstep⟩
  · have hforeign : mayIssue q.agent (.handoff x) = false := Bool.eq_false_iff.mpr (mayIssue_handoff_iff.not.mpr hagent)
    have hstep := step_of_unreadable hturn (readItem_foreign (decode_bytes_of_eq_encode hbytes) hforeign)
    exact ⟨hstep, run_of_step_refused hstep⟩
  · have hread : readItem q = .ok (.handoff x) :=
      readItem_ok_iff.mpr ⟨decode_bytes_of_eq_encode hbytes, mayIssue_handoff_iff.mpr hagent⟩
    have hstep : step s = .refused .handoffWithoutPending :=
      (step_of_presented hturn hread).trans (exec_handoff_of_not_pend ((State.pend_of_presented hturn).trans hpend) x)
    exact ⟨hstep, run_of_step_refused hstep⟩

/-! ### The packed wallclock word (R115, R116) -/

theorem reservedBits_pack (w : Wallclock) : reservedBits (pack w) = 0 := by
  simp (disch := decide) only [reservedBits, pack, BitVec.extractLsb'_setWidth_of_le, BitVec.extractLsb'_append_eq_of_le]
  ext i hi
  simp

/-- Settles O5: a field lies past those below it and inside those from it on; above the year nothing is left. -/
theorem packedWordLayout : Obligations.PackedWordLayout := by
  unfold Obligations.PackedWordLayout
  intro w
  refine ⟨?_, ?_, ?_, ?_, ?_, ?_, ?_, reservedBits_pack w⟩
  all_goals
    simp (disch := decide) only [pack, BitVec.extractLsb'_setWidth_of_le, BitVec.extractLsb'_append_eq_of_le,
      BitVec.extractLsb'_append_eq_of_add_le, Nat.reduceSub, BitVec.extractLsb'_eq_self]

theorem unpack_pack (w : Wallclock) : unpack (pack w) = w := by
  obtain ⟨hmillisecond, hsecond, hminute, hhour, hday, hmonth, hyear, -⟩ := packedWordLayout w
  simp only [unpack, hmillisecond, hsecond, hminute, hhour, hday, hmonth, hyear]

/-- Every field that `unpack` reads ends below bit 53. -/
theorem unpack_setWidth_extractLsb' (x : Packed) : unpack ((x.extractLsb' 0 53).setWidth 64) = unpack x := by
  simp (disch := decide) only [unpack, BitVec.extractLsb'_setWidth_of_le, BitVec.extractLsb'_extractLsb'_of_le]

/-- Settles O6: `unpack` reads each field where `pack` puts it, and nothing else of the word. -/
theorem unpackInvertsPack : Obligations.UnpackInvertsPack := by
  unfold Obligations.UnpackInvertsPack
  refine ⟨unpack_pack, fun x y hlow => ?_⟩
  rw [← unpack_setWidth_extractLsb' x, hlow, unpack_setWidth_extractLsb' y]

end Sys2Proof.Machine

/-! The calendar of 40_calendar: the leap-year rule (R141), the table of month lengths (R142), and the days in a month
(R143, R144). -/

namespace Sys2Proof.Machine

theorem leap_iff {y : Nat} : leap y = true ↔ (y % 4 = 0 ∧ y % 100 ≠ 0) ∨ y % 400 = 0 := by
  simp [leap]

/-- The row of R142. The bound matters: past the 16 months the list gives 0 and `dimLut` stays at 31. -/
theorem dimLut_eq_getD : ∀ m < 16,
    dimLut m = [31, 31, 28, 31, 30, 31, 30, 31, 31, 30, 31, 30, 31, 31, 31, 31].getD m 0 := by
  decide

theorem le_dimLut (m : Nat) : 28 ≤ dimLut m := by
  unfold dimLut
  split <;> decide

theorem dim_eq_dimLut_add (m : BitVec 4) (y : BitVec 16) :
    dim m y = dimLut m.toNat +
      (if m.toNat = 2 ∧ ((y.toNat % 4 = 0 ∧ y.toNat % 100 ≠ 0) ∨ y.toNat % 400 = 0) then 1 else 0) := by
  have hfeb : m = 2 ↔ m.toNat = 2 := BitVec.toNat_eq
  simp only [dim, hfeb, leap_iff]

/-- Settles O14: the leap-year rule, the table read at a 4-bit month, and the document's values by evaluation. -/
theorem leapYearsAndMonthLengths : Obligations.LeapYearsAndMonthLengths := by
  unfold Obligations.LeapYearsAndMonthLengths
  refine ⟨fun y => leap_iff, fun m y => ?_, by decide⟩
  rw [dim_eq_dimLut_add, dimLut_eq_getD m.toNat m.isLt]

/-- Settles O15: the table starts at 28 and February's leap day only adds to it; `dim_le` is the upper bound. -/
theorem monthLengthBounds : Obligations.MonthLengthBounds := by
  unfold Obligations.MonthLengthBounds
  intro m y
  have hlower : 28 ≤ dim m y :=
    calc 28 ≤ dimLut m.toNat := le_dimLut m.toNat
      _ ≤ dim m y := Nat.le_add_right ..
  exact ⟨hlower, dim_le m y⟩

end Sys2Proof.Machine

/-! The time base of 41_timebase: what TICK does to each register (R160 to R166), its calendar (R141 to R143), the runs that are
counted in TICKs (R168, R177), the reads (R170, R172, R174) and HANDOFF (R176). -/

namespace Sys2Proof.Machine

/-! ### The carry chain (R160, R162, R163) -/

/-- How far the carry goes: one case for each field it stops at, and the carry into the year, which stops nowhere. -/
theorem Wallclock.nextMilli_cases (w : Wallclock) :
    (¬ w.carriesSecond ∧ w.nextMilli = { w with millisecond := w.millisecond + 1 }) ∨
    (w.carriesSecond ∧ ¬ w.carriesMinute ∧ w.nextMilli = { w with second := w.second + 1, millisecond := 0 }) ∨
    (w.carriesMinute ∧ ¬ w.carriesHour ∧
      w.nextMilli = { w with minute := w.minute + 1, second := 0, millisecond := 0 }) ∨
    (w.carriesHour ∧ ¬ w.carriesDay ∧
      w.nextMilli = { w with hour := w.hour + 1, minute := 0, second := 0, millisecond := 0 }) ∨
    (w.carriesDay ∧ ¬ w.carriesMonth ∧
      w.nextMilli = { w with day := w.day + 1, hour := 0, minute := 0, second := 0, millisecond := 0 }) ∨
    (w.carriesMonth ∧ ¬ w.carriesYear ∧
      w.nextMilli = { w with month := w.month + 1, day := 1, hour := 0, minute := 0, second := 0, millisecond := 0 }) ∨
    (w.carriesYear ∧
      w.nextMilli = { year := w.year + 1, month := 1, day := 1, hour := 0, minute := 0, second := 0, millisecond := 0 }) := by
  by_cases hsecond : w.carriesSecond
  case neg => exact .inl ⟨hsecond, if_neg hsecond⟩
  have hto : w.nextMilli = Wallclock.nextSecond { w with millisecond := 0 } := if_pos hsecond
  refine .inr ?_
  by_cases hminute : w.carriesMinute
  case neg => exact .inl ⟨hsecond, hminute, hto.trans (if_neg (not_and.mp hminute hsecond))⟩
  replace hto := hto.trans (if_pos hminute.right)
  refine .inr ?_
  by_cases hhour : w.carriesHour
  case neg => exact .inl ⟨hminute, hhour, hto.trans (if_neg (not_and.mp hhour hminute))⟩
  replace hto := hto.trans (if_pos hhour.right)
  refine .inr ?_
  by_cases hday : w.carriesDay
  case neg => exact .inl ⟨hhour, hday, hto.trans (if_neg (not_and.mp hday hhour))⟩
  replace hto := hto.trans (if_pos hday.right)
  refine .inr ?_
  by_cases hmonth : w.carriesMonth
  case neg => exact .inl ⟨hday, hmonth, hto.trans (if_neg (not_and.mp hmonth hday))⟩
  replace hto := hto.trans (if_pos hmonth.right)
  refine .inr ?_
  by_cases hyear : w.carriesYear
  case neg => exact .inl ⟨hmonth, hyear, hto.trans (if_neg (not_and.mp hyear hmonth))⟩
  exact .inr ⟨hyear, hto.trans (if_pos hyear.right)⟩

/-- Each field by its carry, as a number. A field that does not carry is below its limit, so that only the year wraps at its width;
for the day that limit is the month's length, which `dim_le` keeps below 64. -/
theorem Wallclock.nextMilli_fields (w : Wallclock) :
    w.nextMilli.millisecond.toNat = (if w.carriesSecond then 0 else w.millisecond.toNat + 1) ∧
    w.nextMilli.second.toNat =
      (if w.carriesMinute then 0 else if w.carriesSecond then w.second.toNat + 1 else w.second.toNat) ∧
    w.nextMilli.minute.toNat =
      (if w.carriesHour then 0 else if w.carriesMinute then w.minute.toNat + 1 else w.minute.toNat) ∧
    w.nextMilli.hour.toNat =
      (if w.carriesDay then 0 else if w.carriesHour then w.hour.toNat + 1 else w.hour.toNat) ∧
    w.nextMilli.day.toNat =
      (if w.carriesMonth then 1 else if w.carriesDay then w.day.toNat + 1 else w.day.toNat) ∧
    w.nextMilli.month.toNat =
      (if w.carriesYear then 1 else if w.carriesMonth then w.month.toNat + 1 else w.month.toNat) ∧
    w.nextMilli.year.toNat = (if w.carriesYear then (w.year.toNat + 1) % 65536 else w.year.toNat) := by
  have hlength := dim_le w.month w.year
  rcases w.nextMilli_cases with ⟨hstop, heq⟩ | ⟨hcarry, hstop, heq⟩ | ⟨hcarry, hstop, heq⟩ | ⟨hcarry, hstop, heq⟩ |
    ⟨hcarry, hstop, heq⟩ | ⟨hcarry, hstop, heq⟩ | ⟨hcarry, heq⟩
  all_goals
    rw [heq]
    refine ⟨?_, ?_, ?_, ?_, ?_, ?_, ?_⟩ <;> split_ifs <;> bv_omega

/-! ### What TICK does to the registers (R160, R161, R164, R165) -/

theorem eq_of_exec_tick {s t : State} (hexec : exec .tick s = .next t) : t = s.tick := by
  rw [exec_tick_eq, Host.Outcome.next.injEq] at hexec
  exact hexec.symm

theorem State.tick_synced_of_no_rollover {s : State} (h : ¬ s.wc.carriesMinute ∨ s.synced = false) :
    s.tick.synced = s.synced := by
  rw [State.tick_synced]
  rcases h with hstop | hclear
  · have hroll : s.wc.minuteRoll = false := Bool.eq_false_iff.mpr (Wallclock.minuteRoll_iff.not.mpr hstop)
    simp [syncedAfterTick, hroll]
  · rw [hclear, syncedAfterTick_false]

theorem State.tick_synced_eq_false_iff {s : State} (hroll : s.wc.carriesMinute) (hset : s.synced = true) :
    s.tick.synced = false ↔ isStale s.tick.wc.minute s.lsm = true := by
  rw [State.tick_synced, State.tick_wc, hset, syncedAfterTick_true_eq_false_iff, Wallclock.minuteRoll_iff]
  exact and_iff_right hroll

theorem refreshInstant_iff_toNat {m : BitVec 10} : refreshInstant m = true ↔ m.toNat = 0 ∨ m.toNat = 500 :=
  (refreshInstant_iff m).trans (or_congr BitVec.toNat_eq BitVec.toNat_eq)

theorem State.tick_sameDecoder (s : State) : sameDecoder s s.tick := by
  simp [sameDecoder]

theorem State.tick_sameEnvironment (s : State) : sameEnvironment s s.tick := by
  simp [sameEnvironment]

/-- Settles O16: the wallclock by `nextMilli_fields`, the flag by the two lemmas on a rollover, the rest by what TICK leaves. -/
theorem tickAdvancesTimeBase : Obligations.TickAdvancesTimeBase := by
  unfold Obligations.TickAdvancesTimeBase
  refine ⟨fun _ => rfl, fun a => by simp [mayIssue], fun s => ⟨s.tick, exec_tick_eq s, ?_⟩⟩
  obtain ⟨hmillisecond, hsecond, hminute, hhour, hday, hmonth, hyear⟩ := s.wc.nextMilli_fields
  rw [State.tick_wc]
  refine ⟨?_, hmillisecond, hsecond, hminute, hhour, hday, hmonth, hyear, State.tick_synced_of_no_rollover,
    fun hroll hset hle => ?_, ?_, s.tick_lsm, s.tick_pend, s.tick_sameDecoder, s.tick_sameEnvironment⟩
  · rw [State.tick_msc, BitVec.toNat_add]
    rfl
  · rw [State.tick_synced_eq_false_iff hroll hset, State.tick_wc]
    exact isStale_iff hle
  · simp only [State.tick_trace, refreshInstant_iff_toNat]

/-- Settles O17: TICK by its equation, every other operation as no writer of the counter. -/
theorem counterWrittenOnlyByTickAndReset : Obligations.CounterWrittenOnlyByTickAndReset := by
  unfold Obligations.CounterWrittenOnlyByTickAndReset
  refine fun i s t hexec => ⟨?_, fun htick hreset => exec_msc_of_not_writer htick hreset hexec⟩
  rintro rfl
  rw [eq_of_exec_tick hexec]
  exact ⟨s.tick_msc, s.tick_wc⟩

/-! ### REFRESH (R165) -/

theorem State.tick_count_refresh (s : State) :
    s.tick.trace.count .refresh = s.trace.count .refresh +
      (if s.wc.nextMilli.millisecond = 0 ∨ s.wc.nextMilli.millisecond = 500 then 1 else 0) := by
  simp only [State.tick_trace, refreshInstant_iff]
  split_ifs <;> simp

theorem outputOf_count_refresh {i : Instr} (htick : i ≠ .tick) (wc : Wallclock) (msc : BitVec 16) (synced : Bool)
    (issuer : Agent) : (outputOf i wc msc synced issuer).count .refresh = 0 := by
  cases i with
  | tick => exact absurd rfl htick
  | _ => rfl

theorem exec_count_refresh_of_not_tick {i : Instr} {s t : State} (htick : i ≠ .tick) (hexec : exec i s = .next t) :
    t.trace.count .refresh = s.trace.count .refresh := by
  rw [exec_trace hexec, List.count_append, outputOf_count_refresh htick, Nat.zero_add]

theorem Chip.engineOut_refresh_iff {c : Chip} (hrun : c.engRun = true) (tick : Bool) :
    (c.engineOut tick).refresh = true ↔
      tick = true ∧ (c.wc.nextMilli.millisecond = 0 ∨ c.wc.nextMilli.millisecond = 500) := by
  rw [Chip.engineOut_of_run hrun, Chip.engineNext_trace, ← refreshInstant_iff]
  simp

/-- Settles O18: TICK, the other operations by the output each adds, and the realisation by the trace of its engine cycle. -/
theorem refreshOnlyAtTicksToZeroOr500 : Obligations.RefreshOnlyAtTicksToZeroOr500 := by
  unfold Obligations.RefreshOnlyAtTicksToZeroOr500
  refine ⟨fun s t hexec => ?_, fun i s t => exec_count_refresh_of_not_tick,
    fun c tick hrun => Chip.engineOut_refresh_iff hrun tick⟩
  rw [eq_of_exec_tick hexec, State.tick_wc]
  exact s.tick_count_refresh

/-! ### Valid dates (R166) -/

/-- A carry writes the first value of each field it passes. Where it stops at the month or the year, that is day 1, and every month
has one; where it stops at the day, the date was not the month's last. -/
theorem Wallclock.valid.nextMilli {w : Wallclock} (h : w.valid) : w.nextMilli.valid := by
  have hlength := dim_le w.month w.year
  obtain ⟨hnextMonth, -⟩ := monthLengthBounds (w.month + 1) w.year
  obtain ⟨hjanuary, -⟩ := monthLengthBounds 1 (w.year + 1)
  obtain ⟨hmonth, hmonth', hday, hday', hhour, hminute, hsecond, hmillisecond⟩ := h
  rcases w.nextMilli_cases with ⟨hstop, heq⟩ | ⟨hcarry, hstop, heq⟩ | ⟨hcarry, hstop, heq⟩ | ⟨hcarry, hstop, heq⟩ |
    ⟨hcarry, hstop, heq⟩ | ⟨hcarry, hstop, heq⟩ | ⟨hcarry, heq⟩
  all_goals
    rw [heq, Wallclock.valid]
    bv_omega

/-- Settles O19, by the cases of the carry chain. -/
theorem tickKeepsValidDate : Obligations.TickKeepsValidDate := by
  unfold Obligations.TickKeepsValidDate
  intro s t hvalid hexec
  rw [eq_of_exec_tick hexec, State.tick_wc]
  exact hvalid.nextMilli

theorem Wallclock.valid.inBounds {w : Wallclock} (h : w.valid) : w.inBounds := by
  obtain ⟨-, hmonth, -, hday, hhour, hminute, hsecond, hmillisecond⟩ := h
  have hlength := dim_le w.month w.year
  unfold Wallclock.inBounds
  omega

/-! ### The time of day -/

/-- The time of day in milliseconds. -/
def Wallclock.msOfDay (w : Wallclock) : Nat :=
  ((w.hour.toNat * 60 + w.minute.toNat) * 60 + w.second.toNat) * 1000 + w.millisecond.toNat

theorem Wallclock.inBounds.minute_eq {w : Wallclock} (h : w.inBounds) : w.minute.toNat = w.msOfDay / 60000 % 60 := by
  obtain ⟨-, -, -, hminute, hsecond, hmillisecond⟩ := h
  unfold Wallclock.msOfDay
  omega

theorem Wallclock.inBounds.carriesMinute_iff {w : Wallclock} (h : w.inBounds) :
    w.carriesMinute ↔ (w.msOfDay + 1) % 60000 = 0 := by
  obtain ⟨-, -, -, -, hsecond, hmillisecond⟩ := h
  unfold Wallclock.msOfDay
  omega

theorem Wallclock.inBounds.msOfDay_of_carriesDay {w : Wallclock} (h : w.inBounds) (hcarry : w.carriesDay) :
    w.msOfDay + 1 = 86400000 := by
  obtain ⟨-, -, hhour, hminute, hsecond, hmillisecond⟩ := h
  unfold Wallclock.msOfDay
  omega

theorem Wallclock.msOfDay_nextMilli_of_carriesDay {w : Wallclock} (hday : w.carriesDay) : w.nextMilli.msOfDay = 0 := by
  have hhour : w.carriesHour := hday.left
  have hminute : w.carriesMinute := hhour.left
  have hsecond : w.carriesSecond := hminute.left
  obtain ⟨hmillisecondNext, hsecondNext, hminuteNext, hhourNext, -⟩ := w.nextMilli_fields
  rw [Wallclock.msOfDay, hhourNext, hminuteNext, hsecondNext, hmillisecondNext, if_pos hday, if_pos hhour, if_pos hminute,
    if_pos hsecond]

theorem Wallclock.inBounds.msOfDay_nextMilli_of_not_carriesDay {w : Wallclock} (h : w.inBounds) (hstop : ¬ w.carriesDay) :
    w.nextMilli.msOfDay = w.msOfDay + 1 := by
  obtain ⟨hmillisecondNext, hsecondNext, hminuteNext, hhourNext, -⟩ := w.nextMilli_fields
  obtain ⟨-, -, hhour, hminute, hsecond, hmillisecond⟩ := h
  simp only [Wallclock.msOfDay, hmillisecondNext, hsecondNext, hminuteNext, hhourNext]
  split_ifs <;> omega

/-! ### The number of the day (40_calendar R141, R143) -/

/-- A quotient rounded up moves on exactly at the multiples. -/
theorem ceil_div_add_one (y k : Nat) :
    (y + 1 + k) / (k + 1) = (y + k) / (k + 1) + (if y % (k + 1) = 0 then 1 else 0) := by
  rw [Nat.add_right_comm, Nat.succ_div]
  simp only [Nat.add_assoc, Nat.dvd_iff_mod_eq_zero, Nat.add_mod_right]

/-- There are at most as many centuries as leap-year candidates, so the subtraction in `daysBeforeYear` loses nothing. -/
theorem daysBeforeYear_add_one (y : Nat) : daysBeforeYear (y + 1) = daysBeforeYear y + 365 + (if leap y then 1 else 0) := by
  have hle : (y + 99) / 100 ≤ (y + 3) / 4 := by omega
  unfold daysBeforeYear
  rw [ceil_div_add_one y 3, ceil_div_add_one y 99, ceil_div_add_one y 399]
  simp only [leap_iff, Nat.reduceAdd]
  generalize (y + 3) / 4 = fours, (y + 99) / 100 = hundreds, (y + 399) / 400 = fourHundreds at hle ⊢
  split_ifs <;> omega

theorem daysBeforeMonth_add_one {m : BitVec 4} (y : BitVec 16) (hfirst : 1 ≤ m.toNat) (hlast : m.toNat ≤ 12) :
    daysBeforeMonth (m + 1).toNat y = daysBeforeMonth m.toNat y + dim m y := by
  obtain ⟨k, hk⟩ := Nat.exists_eq_add_of_le' hfirst
  have hsucc : (m + 1).toNat = k + 1 + 1 := by bv_omega
  have hmonth : BitVec.ofNat 4 (k + 1) = m := by rw [← hk, BitVec.ofNat_toNat, BitVec.setWidth_eq]
  rw [hsucc, hk, daysBeforeMonth, daysBeforeMonth, Nat.add_sub_cancel, Nat.add_sub_cancel, List.range_succ]
  simp [hmonth]

theorem daysBeforeMonth_december (y : BitVec 16) :
    daysBeforeMonth (12 : BitVec 4).toNat y = 334 + (if leap y.toNat then 1 else 0) := by
  cases hleap : leap y.toNat <;> simp [daysBeforeMonth, List.range_succ, dim, dimLut, hleap]

/-- How many whole days lie between 1 January of year 0 and the date. -/
def Wallclock.dayNumber (w : Wallclock) : Nat :=
  daysBeforeYear w.year.toNat + daysBeforeMonth w.month.toNat w.year + (w.day.toNat - 1)

theorem Wallclock.ordinal_eq (w : Wallclock) : w.ordinal = w.dayNumber * 86400000 + w.msOfDay := by
  unfold Wallclock.ordinal Wallclock.dayNumber Wallclock.msOfDay
  omega

theorem Wallclock.dayNumber_nextMilli_of_not_carriesDay {w : Wallclock} (h : ¬ w.carriesDay) :
    w.nextMilli.dayNumber = w.dayNumber := by
  rcases w.nextMilli_cases with ⟨-, heq⟩ | ⟨-, -, heq⟩ | ⟨-, -, heq⟩ | ⟨-, -, heq⟩ | ⟨hday, -⟩ | ⟨⟨hday, -⟩, -⟩ |
    ⟨⟨⟨hday, -⟩, -⟩, -⟩
  case inr.inr.inr.inr.inl => exact absurd hday h
  case inr.inr.inr.inr.inr.inl => exact absurd hday h
  case inr.inr.inr.inr.inr.inr => exact absurd hday h
  all_goals rw [heq, Wallclock.dayNumber, Wallclock.dayNumber]

/-- The next day is in the same month, or is the first of the next month, or is 1 January of the next year; the last two follow a
month's last day. -/
theorem Wallclock.valid.dayNumber_nextMilli {w : Wallclock} (h : w.valid) (hyear : w.year.toNat < 65535 ∨ ¬ w.carriesYear)
    (hcarry : w.carriesDay) : w.nextMilli.dayNumber = w.dayNumber + 1 := by
  have hlength := dim_le w.month w.year
  obtain ⟨hmonth, hmonth', hday, hday', -⟩ := h
  rcases w.nextMilli_cases with ⟨hstop, -⟩ | ⟨-, hstop, -⟩ | ⟨-, hstop, -⟩ | ⟨-, hstop, -⟩ | ⟨-, hstop, heq⟩ |
    ⟨hlast, -, heq⟩ | ⟨hlast, heq⟩
  case inr.inr.inr.inr.inl =>
    rw [heq, Wallclock.dayNumber, Wallclock.dayNumber]
    bv_omega
  case inr.inr.inr.inr.inr.inl =>
    rw [heq, Wallclock.dayNumber, Wallclock.dayNumber]
    simp only [daysBeforeMonth_add_one w.year hmonth hmonth']
    bv_omega
  case inr.inr.inr.inr.inr.inr =>
    have hdecember : w.month = 12 := by bv_omega
    have hdays : dim w.month w.year = 31 := by
      rw [hdecember]
      rfl
    have hsucc : (w.year + 1).toNat = w.year.toNat + 1 := by bv_omega
    have hjanuary : daysBeforeMonth (1 : BitVec 4).toNat (w.year + 1) = 0 := rfl
    rw [heq, Wallclock.dayNumber, Wallclock.dayNumber, hdecember]
    simp only [hsucc, daysBeforeYear_add_one, daysBeforeMonth_december, hjanuary]
    bv_omega
  all_goals omega

theorem Wallclock.valid.ordinal_nextMilli {w : Wallclock} (h : w.valid) (hyear : w.year.toNat < 65535 ∨ ¬ w.carriesYear) :
    w.nextMilli.ordinal = w.ordinal + 1 := by
  rw [Wallclock.ordinal_eq, Wallclock.ordinal_eq]
  by_cases hcarry : w.carriesDay
  · have hlast := h.inBounds.msOfDay_of_carriesDay hcarry
    rw [h.dayNumber_nextMilli hyear hcarry, Wallclock.msOfDay_nextMilli_of_carriesDay hcarry]
    omega
  · rw [Wallclock.dayNumber_nextMilli_of_not_carriesDay hcarry, h.inBounds.msOfDay_nextMilli_of_not_carriesDay hcarry,
      Nat.add_assoc]

/-- Settles O20: within a day the time of day goes up by one; a carry into the day ends it and starts the next day. -/
theorem tickIsNextCalendarMillisecond : Obligations.TickIsNextCalendarMillisecond := by
  unfold Obligations.TickIsNextCalendarMillisecond
  intro s t hvalid hyear hexec
  rw [eq_of_exec_tick hexec, State.tick_wc]
  exact hvalid.ordinal_nextMilli hyear

/-! ### Runs counted in TICKs -/

/-- What every TICK takes from `n` to `n + 1` and every other operation keeps, a run with no HANDOFF and no RESET takes on by the
number of its TICKs. -/
theorem runOps_counts_ticks {P : Nat → State → Prop} (htick : ∀ n s, P n s → P (n + 1) s.tick)
    (hother : ∀ n i s t, i ≠ .tick → keepsTime i = true → exec i s = .next t → P n s → P n t)
    {ops : List Instr} {n : Nat} {s t : State} (hkeep : ∀ i ∈ ops, keepsTime i = true) (hrun : runOps ops s = .next t)
    (h : P n s) : P (n + tickCount ops) t := by
  induction ops generalizing s n with
  | nil =>
    rw [runOps, Host.Outcome.next.injEq] at hrun
    exact hrun ▸ h
  | cons i ops ih =>
    obtain ⟨hi, hrest⟩ := List.forall_mem_cons.mp hkeep
    obtain ⟨u, hexec, hrun⟩ := runOps_cons_eq_next_iff.mp hrun
    rw [tickCount_cons, ← Nat.add_assoc]
    refine ih hrest hrun ?_
    by_cases hcount : i = .tick
    · rw [hcount] at hexec ⊢
      rw [eq_of_exec_tick hexec]
      exact htick n s h
    · have hzero : tickCount [i] = 0 := List.count_eq_zero_of_not_mem (by simpa [eq_comm] using hcount)
      rw [hzero]
      exact hother n i s u hcount hi hexec h

/-! ### The refresh rate (R168) -/

/-- Where a state stands `n` TICKs after one with the millisecond `start` and `base` REFRESH in its trace: the millisecond has gone
round at 1000, and there is one REFRESH for each multiple of 500 passed. -/
structure State.RefreshedSince (start base n : Nat) (s : State) : Prop where
  millisecond : s.wc.millisecond.toNat = (start + n) % 1000
  refreshes : s.trace.count .refresh + start / 500 = base + (start + n) / 500

theorem State.refreshedSince_self {s : State} (h : s.wc.millisecond.toNat < 1000) :
    s.RefreshedSince s.wc.millisecond.toNat (s.trace.count .refresh) 0 :=
  ⟨(Nat.mod_eq_of_lt h).symm, rfl⟩

theorem Wallclock.millisecond_nextMilli {w : Wallclock} (h : w.millisecond.toNat < 1000) :
    w.nextMilli.millisecond.toNat = (w.millisecond.toNat + 1) % 1000 := by
  obtain ⟨hmillisecond, -⟩ := w.nextMilli_fields
  rw [hmillisecond]
  split_ifs <;> omega

theorem State.RefreshedSince.tick {start base n : Nat} {s : State} (h : s.RefreshedSince start base n) :
    s.tick.RefreshedSince start base (n + 1) := by
  have hbound : s.wc.millisecond.toNat < 1000 := h.millisecond ▸ Nat.mod_lt _ (by decide)
  have hnext : s.wc.nextMilli.millisecond.toNat = (start + n + 1) % 1000 := by
    rw [Wallclock.millisecond_nextMilli hbound, h.millisecond, Nat.mod_add_mod]
  have hinstant : s.wc.nextMilli.millisecond = 0 ∨ s.wc.nextMilli.millisecond = 500 ↔ (start + n + 1) % 500 = 0 := by
    bv_omega
  have hbefore := h.refreshes
  constructor
  · rw [State.tick_wc, hnext, Nat.add_assoc]
  · simp only [State.tick_count_refresh, hinstant]
    split_ifs <;> omega

theorem State.RefreshedSince.exec_of_not_tick {start base n : Nat} {i : Instr} {s t : State} (htick : i ≠ .tick)
    (hkeep : keepsTime i = true) (hexec : exec i s = .next t) (h : s.RefreshedSince start base n) :
    t.RefreshedSince start base n := by
  obtain ⟨hhandoff, hreset⟩ := keepsTime_iff.mp hkeep
  constructor
  · rw [exec_wc_of_not_writer htick hhandoff hreset hexec, h.millisecond]
  · rw [exec_count_refresh_of_not_tick htick hexec, h.refreshes]

/-- Settles O31: 1000 milliseconds on from anywhere pass two multiples of 500. -/
theorem twoRefreshesPerThousandTicks : Obligations.TwoRefreshesPerThousandTicks := by
  unfold Obligations.TwoRefreshesPerThousandTicks
  intro s t ops hbound hkeep hcount hrun
  have hend := runOps_counts_ticks (P := State.RefreshedSince _ _) (fun _ _ => State.RefreshedSince.tick)
    (fun _ _ _ _ => State.RefreshedSince.exec_of_not_tick) hkeep hrun (State.refreshedSince_self hbound)
  have hrefreshes := hend.refreshes
  rw [hcount] at hrefreshes
  omega

/-! ### The staleness timeline (R164, R177) -/

theorem exec_lsm_of_not_writer {i : Instr} {s t : State} (hhandoff : ∀ x, i ≠ .handoff x) (hreset : i ≠ .reset)
    (hexec : exec i s = .next t) : t.lsm = s.lsm := by
  rcases exec_next_cases hexec with ⟨-, rfl⟩ | ⟨l, -, -, rfl⟩ | ⟨l, -, -, rfl⟩ | ⟨-, e, -, rfl⟩ | ⟨x, w, hi, -⟩ |
    ⟨b, -, rfl⟩ | ⟨hi, -⟩
  case inr.inr.inr.inr.inl => exact absurd hi (hhandoff x)
  case inr.inr.inr.inr.inr.inr => exact absurd hi hreset
  all_goals simp

/-- An hour divides a day, so the time within the hour goes on over midnight. -/
theorem Wallclock.inBounds.msOfDay_nextMilli_mod {w : Wallclock} (h : w.inBounds) :
    w.nextMilli.msOfDay % 3600000 = (w.msOfDay + 1) % 3600000 := by
  by_cases hcarry : w.carriesDay
  · rw [Wallclock.msOfDay_nextMilli_of_carriesDay hcarry, h.msOfDay_of_carriesDay hcarry]
  · rw [h.msOfDay_nextMilli_of_not_carriesDay hcarry]

/-- `n` milliseconds past the full minute `m` the staleness difference is the number of whole minutes in `n`, modulo 60. -/
theorem Wallclock.inBounds.isStale_minute_iff {w : Wallclock} {m : BitVec 6} {n : Nat} (h : w.inBounds) (hm : m.toNat ≤ 59)
    (htime : w.msOfDay % 3600000 = (m.toNat * 60000 + n) % 3600000) : isStale w.minute m = true ↔ 5 < n / 60000 % 60 := by
  have hminute := h.minute_eq
  rw [isStale_iff (by omega)]
  omega

/-- Where a state stands `n` TICKs after the HANDOFF of a value with minute `m`: the time is `n` milliseconds past that minute, and
the flag is still set while `n` is less than six minutes. -/
structure State.TicksAfterHandoff (m : BitVec 6) (n : Nat) (s : State) : Prop where
  wc : s.wc.inBounds
  time : s.wc.msOfDay % 3600000 = (m.toNat * 60000 + n) % 3600000
  lsm : s.lsm = m
  synced : s.synced = decide (n < 360000)

theorem State.applyHandoff_ticksAfterHandoff (s : State) {w : Wallclock} (hw : w.handoffBounds) :
    (s.applyHandoff w).TicksAfterHandoff w.minute 0 where
  wc := hw.inBounds
  time := by
    obtain ⟨hsecond, hmillisecond, -⟩ := hw
    rw [State.applyHandoff_wc, Wallclock.msOfDay]
    bv_omega
  lsm := rfl
  synced := by simp

/-- The flag falls at the first rollover with more than five whole minutes, which is the TICK to `n + 1 = 360000`. -/
theorem State.TicksAfterHandoff.tick {m : BitVec 6} {n : Nat} {s : State} (hm : m.toNat ≤ 59) (h : s.TicksAfterHandoff m n) :
    s.tick.TicksAfterHandoff m (n + 1) := by
  have hbounds : s.wc.nextMilli.inBounds := h.wc.nextMilli
  have htime : s.wc.nextMilli.msOfDay % 3600000 = (m.toNat * 60000 + (n + 1)) % 3600000 := by
    rw [h.wc.msOfDay_nextMilli_mod, Nat.add_mod, h.time, ← Nat.add_mod, Nat.add_assoc]
  have hroll : s.wc.minuteRoll = true ↔ (n + 1) % 60000 = 0 := by
    have hnow := h.time
    rw [Wallclock.minuteRoll_iff, h.wc.carriesMinute_iff]
    omega
  have hstale : isStale s.wc.nextMilli.minute m = true ↔ 5 < (n + 1) / 60000 % 60 := hbounds.isStale_minute_iff hm htime
  refine ⟨by rwa [State.tick_wc], by rwa [State.tick_wc], s.tick_lsm.trans h.lsm, ?_⟩
  rw [State.tick_synced, h.lsm, h.synced, Bool.eq_iff_iff]
  simp only [syncedAfterTick, Bool.and_eq_true, Bool.not_eq_true', Bool.eq_false_iff, ne_eq, decide_eq_true_eq, hroll, hstale]
  omega

theorem State.TicksAfterHandoff.exec_of_not_tick {m : BitVec 6} {n : Nat} {i : Instr} {s t : State} (htick : i ≠ .tick)
    (hkeep : keepsTime i = true) (hexec : exec i s = .next t) (h : s.TicksAfterHandoff m n) : t.TicksAfterHandoff m n := by
  obtain ⟨hhandoff, hreset⟩ := keepsTime_iff.mp hkeep
  have hwc := exec_wc_of_not_writer htick hhandoff hreset hexec
  exact ⟨hwc ▸ h.wc, hwc ▸ h.time, (exec_lsm_of_not_writer hhandoff hreset hexec).trans h.lsm,
    (exec_synced_of_not_writer htick hhandoff hreset hexec).trans h.synced⟩

/-- Settles O30: the time and the flag after the HANDOFF, kept along the run as functions of its TICKs. -/
theorem stalenessTimeline : Obligations.StalenessTimeline := by
  unfold Obligations.StalenessTimeline
  intro s u t w ops hpend hw hexec hkeep hrun
  rw [exec_handoff_of_pend hpend, Host.Outcome.next.injEq] at hexec
  have hstart : u.TicksAfterHandoff w.minute 0 := hexec ▸ s.applyHandoff_ticksAfterHandoff hw
  have hend := runOps_counts_ticks (P := State.TicksAfterHandoff w.minute) (fun _ _ => State.TicksAfterHandoff.tick hw.minute_le)
    (fun _ _ _ _ => State.TicksAfterHandoff.exec_of_not_tick) hkeep hrun hstart
  rw [hend.synced, Nat.zero_add]

/-! ### The reads (R170, R172, R174) -/

theorem mayIssue_read_iff {i : Instr} (hread : i ∈ ([.snap, .getms, .syncq] : List Instr)) (a : Agent) :
    mayIssue a i = true ↔ ∃ n, a = .reader n := by
  simp only [List.mem_cons, List.not_mem_nil, or_false] at hread
  rcases hread with rfl | rfl | rfl <;> exact isReader_iff

theorem ticksFrom_issuer (n : Nat) (s : State) : (ticksFrom n s).issuer = s.issuer := by
  induction n generalizing s with
  | zero => rfl
  | succ n ih => rw [ticksFrom, ih, State.tick_issuer]

theorem ticksFrom_msc (n : Nat) (s : State) : (ticksFrom n s).msc = s.msc + BitVec.ofNat 16 n := by
  induction n generalizing s with
  | zero => simp [ticksFrom]
  | succ n ih =>
    calc (ticksFrom (n + 1) s).msc = s.msc + 1 + BitVec.ofNat 16 n := by rw [ticksFrom, ih, State.tick_msc]
      _ = s.msc + BitVec.ofNat 16 (n + 1) := by rw [BitVec.add_assoc, Nat.add_comm n, BitVec.ofNat_add, BitVec.ofNat_eq_ofNat]

/-- Settles O21; the counter after 70000 TICKs by induction on their number, not by running them. -/
theorem getmsReturnsCounter : Obligations.GetmsReturnsCounter := by
  unfold Obligations.GetmsReturnsCounter
  refine ⟨fun _ => rfl, mayIssue_read_iff (by simp), exec_getms_eq, ?_⟩
  have hmsc : (ticksFrom 70000 State.reset).msc = 4464 :=
    calc (ticksFrom 70000 State.reset).msc = 0 + BitVec.ofNat 16 70000 := ticksFrom_msc 70000 State.reset
      _ = 4464 := by decide
  have hissuer : (ticksFrom 70000 State.reset).issuer = .resetInput := ticksFrom_issuer 70000 State.reset
  rw [exec_getms_eq, hissuer, hmsc, State.record]

/-- Settles O22, by SNAP's equation; the epoch's packed word by evaluation. -/
theorem snapReturnsPackedWallclock : Obligations.SnapReturnsPackedWallclock := by
  unfold Obligations.SnapReturnsPackedWallclock
  exact ⟨fun _ => rfl, mayIssue_read_iff (by simp), exec_snap_eq, by decide⟩

theorem syncedBit_eq_ite (b : Bool) : syncedBit b = if b then 1 else 0 := by
  cases b <;> rfl

/-- Settles O23, by SYNCQ's equation. -/
theorem syncqReturnsFlag : Obligations.SyncqReturnsFlag := by
  unfold Obligations.SyncqReturnsFlag
  refine ⟨fun _ => rfl, mayIssue_read_iff (by simp), fun s => ?_, rfl⟩
  rw [exec_syncq_eq, syncedBit_eq_ite, State.record]

/-! ### HANDOFF (R176) -/

/-- Settles O26: HANDOFF's equation holds at every operand. -/
theorem handoffOperandNotRead : Obligations.HandoffOperandNotRead := by
  unfold Obligations.HandoffOperandNotRead
  exact fun s x w hpend => exec_handoff_of_pend hpend x

/-- Settles O25: the bytes are the encoding of HANDOFF, and its effect is that at the operand `pack w`. -/
theorem handoffAppliesPending : Obligations.HandoffAppliesPending := by
  unfold Obligations.HandoffAppliesPending
  exact ⟨fun w rest => decode_encode (.handoff (pack w)) rest, fun a x => mayIssue_handoff_iff,
    fun s w hpend => exec_handoff_of_pend hpend (pack w), fun s x hpend => exec_handoff_of_not_pend hpend x⟩

end Sys2Proof.Machine

/-! The Signal Decoder of 42_decoder: what an EDGE step does in each of its cases (R200 to R213), what a frame says (R220 to R234),
what the decoder reads of the engine (R236), and that the spec's test signal is received whole (R240). -/

namespace Sys2Proof.Machine

/-! ### The classifier (42_decoder R205 to R208) -/

theorem inWindow_iff {window : Nat × Nat} {iv : BitVec 16} :
    inWindow window iv = true ↔ window.1 < iv.toNat ∧ iv.toNat < window.2 := by
  simp [inWindow]

theorem classify_high (iv : BitVec 16) : classify .high iv = if 1500 < iv.toNat then .marker else .none := rfl

theorem classify_low (iv : BitVec 16) :
    classify .low iv =
      if 160 < iv.toNat ∧ iv.toNat < 240 then .one else if 60 < iv.toNat ∧ iv.toNat < 140 then .zero else .none := by
  simp only [classify, inWindow_iff, oneWindowMs, zeroWindowMs]

theorem classify_high_eq_marker_iff {iv : BitVec 16} : classify .high iv = .marker ↔ 1500 < iv.toNat := by
  simp [classify_high]

theorem classify_high_eq_none_iff {iv : BitVec 16} : classify .high iv = .none ↔ iv.toNat ≤ 1500 := by
  simp [classify_high]

theorem classify_low_eq_one_iff {iv : BitVec 16} : classify .low iv = .one ↔ 160 < iv.toNat ∧ iv.toNat < 240 := by
  rw [classify_low]
  split_ifs with hone hzero <;> simp [hone]

/-- The windows of ONE and ZERO do not meet, so the order of the two tests does not matter. -/
theorem classify_low_eq_zero_iff {iv : BitVec 16} : classify .low iv = .zero ↔ 60 < iv.toNat ∧ iv.toNat < 140 := by
  rw [classify_low]
  split_ifs with hone hzero <;> simp only [true_iff, false_iff] <;> omega

/-- A LOW edge whose interval is in neither window is noise. -/
theorem classify_low_eq_none_iff {iv : BitVec 16} :
    classify .low iv = .none ↔ iv.toNat ≤ 60 ∨ (140 ≤ iv.toNat ∧ iv.toNat ≤ 160) ∨ 240 ≤ iv.toNat := by
  rw [classify_low]
  split_ifs with hone hzero <;> simp only [true_iff, false_iff] <;> omega

theorem classify_low_ne_marker {iv : BitVec 16} : classify .low iv ≠ .marker := by
  rw [classify_low]
  split_ifs <;> simp

/-- Settles O36, one window at a time. -/
theorem classifierWindows : Obligations.ClassifierWindows := by
  unfold Obligations.ClassifierWindows
  exact fun iv => ⟨classify_high_eq_marker_iff, classify_high_eq_none_iff, classify_low_eq_one_iff, classify_low_eq_zero_iff,
    classify_low_eq_none_iff⟩

/-- A LOW edge brings the bit in whose window its interval lies (30_encoding R122). -/
theorem symbolBit_classify_low_eq_some_iff {iv : BitVec 16} {b : Bool} :
    symbolBit (classify .low iv) = some b ↔
      if b then 160 < iv.toNat ∧ iv.toNat < 240 else 60 < iv.toNat ∧ iv.toNat < 140 := by
  rw [← classify_low_eq_one_iff, ← classify_low_eq_zero_iff]
  cases b <;> cases classify .low iv <;> simp [symbolBit]

theorem symbolBit_classify_low_eq_none_iff {iv : BitVec 16} :
    symbolBit (classify .low iv) = none ↔ iv.toNat ≤ 60 ∨ (140 ≤ iv.toNat ∧ iv.toNat ≤ 160) ∨ 240 ≤ iv.toNat := by
  rw [← classify_low_eq_none_iff]
  have hmarker := classify_low_ne_marker (iv := iv)
  cases hsymbol : classify .low iv
  case marker => exact absurd hsymbol hmarker
  all_goals simp [symbolBit]

/-! ### An EDGE step, case by case (R200 to R204, R209 to R213)

`State.handleEdge_cases` read in the other direction: from a case's condition to its effect. -/

theorem State.interval_toNat (s : State) : s.interval.toNat = intervalMs s := by
  rw [State.interval, intervalMs]
  bv_omega

theorem State.handleEdge_of_debounced {s : State} {l : Level} (hlvl : l = s.lvl) : s.handleEdge l = s := by
  simp [State.handleEdge, hlvl]

section Handled

variable {s : State} (henabled : s.decEn = true)
include henabled

theorem State.handleEdge_of_no_marker (hlvl : .high ≠ s.lvl) (hsymbol : classify .high s.interval ≠ .marker) :
    s.handleEdge .high = s.recordEdge .high := by
  simp [State.handleEdge, State.highEdge, henabled, hlvl, hsymbol]

theorem State.handleEdge_of_accepted (hlvl : .high ≠ s.lvl) (hsymbol : classify .high s.interval = .marker)
    (haccepted : frameAccepted s.cnt s.f = true) :
    s.handleEdge .high = ((s.recordEdge .high).setPend (some (syncVal (frameDecode s.f)))).clearFrame := by
  simp [State.handleEdge, State.highEdge, State.markerEdge, henabled, hlvl, hsymbol, haccepted]

theorem State.handleEdge_of_discarded (hlvl : .high ≠ s.lvl) (hsymbol : classify .high s.interval = .marker)
    (hdiscarded : frameAccepted s.cnt s.f = false) : s.handleEdge .high = (s.recordEdge .high).clearFrame := by
  simp [State.handleEdge, State.highEdge, State.markerEdge, henabled, hlvl, hsymbol, hdiscarded]

theorem State.handleEdge_of_no_bit (hlvl : .low ≠ s.lvl)
    (hno : cntLimit < s.cnt.toNat ∨ symbolBit (classify .low s.interval) = none) : s.handleEdge .low = s.recordEdge .low := by
  rcases hno with hlimit | hbit
  · simp [State.handleEdge, State.lowEdge, henabled, hlvl, hlimit]
  · simp [State.handleEdge, State.lowEdge, henabled, hlvl, hbit]

theorem State.handleEdge_of_bit {b : Bool} (hlvl : .low ≠ s.lvl) (hcnt : s.cnt.toNat ≤ cntLimit)
    (hbit : symbolBit (classify .low s.interval) = some b) : s.handleEdge .low = (s.recordEdge .low).appendBit b := by
  simp [State.handleEdge, State.lowEdge, henabled, hlvl, Nat.not_lt.mpr hcnt, hbit]

/-- Whatever its symbol, a handled edge records its level and the counter (R203, R204). -/
theorem State.handleEdge_lvl_lem {l : Level} (hlvl : l ≠ s.lvl) :
    (s.handleEdge l).lvl = l ∧ (s.handleEdge l).lem = s.msc := by
  rcases s.handleEdge_cases l with ⟨hignored, -⟩ | ⟨-, -, rfl, -, heq⟩ | ⟨-, -, rfl, -, -, heq⟩ | ⟨-, -, rfl, -, -, heq⟩ |
    ⟨-, -, rfl, -, heq⟩ | ⟨-, -, rfl, -, b, -, heq⟩
  case inl => simp [henabled, hlvl] at hignored
  all_goals simp [heq]

end Handled

/-- A handled EDGE is taken at once. -/
theorem handles.exec_edge {s : State} {l : Level} (h : handles s l) : exec (.edge l) s = .next (s.handleEdge l) := by
  obtain ⟨hpend, hwaiting, -, -⟩ := h
  exact exec_edge_of_none_waiting hpend hwaiting l

theorem handles.decEn {s : State} {l : Level} (h : handles s l) : s.decEn = true := by
  obtain ⟨-, -, henabled, -⟩ := h
  exact henabled

theorem handles.lvl_ne {s : State} {l : Level} (h : handles s l) : l ≠ s.lvl := by
  obtain ⟨-, -, -, hlvl⟩ := h
  exact hlvl

/-- Settles O34: the edge is taken at once, and the step is that of the masked or of the debounced case. -/
theorem edgeIgnored : Obligations.EdgeIgnored := by
  unfold Obligations.EdgeIgnored
  rintro s l hpend (hmasked | ⟨hwaiting, hlvl⟩)
  · rw [exec_edge_of_enabled (s.edgeEnabled_iff.mpr ⟨hpend, .inr hmasked⟩), State.handleEdge_of_masked hmasked]
  · rw [exec_edge_of_none_waiting hpend hwaiting, State.handleEdge_of_debounced hlvl]

/-- Settles O35; the model subtracts the two words where R204 takes the difference modulo 65536. -/
theorem edgeRecordsLevelAndTime : Obligations.EdgeRecordsLevelAndTime := by
  unfold Obligations.EdgeRecordsLevelAndTime
  intro s l h
  obtain ⟨hnewLvl, hnewLem⟩ := State.handleEdge_lvl_lem h.decEn h.lvl_ne
  exact ⟨s.handleEdge l, h.exec_edge, hnewLvl, hnewLem, s.interval_toNat⟩

/-- Settles O37: neither past the count limit nor in noise does a LOW edge bring a bit. -/
theorem lowEdgeWithoutBit : Obligations.LowEdgeWithoutBit := by
  unfold Obligations.LowEdgeWithoutBit
  intro s h hno
  rw [← s.interval_toNat, ← symbolBit_classify_low_eq_none_iff] at hno
  rw [h.exec_edge, State.handleEdge_of_no_bit h.decEn h.lvl_ne hno, State.recordEdge]

theorem toNat_cnt_add_one {cnt : BitVec 6} (h : cnt.toNat ≤ 60) : (cnt + 1).toNat = cnt.toNat + 1 := by
  bv_omega

/-- Settles O38; the new frame is `storeBit` of the old one. -/
theorem lowEdgeAppendsBit : Obligations.LowEdgeAppendsBit := by
  unfold Obligations.LowEdgeAppendsBit
  intro s b h hcnt hwindow
  rw [← s.interval_toNat, ← symbolBit_classify_low_eq_some_iff] at hwindow
  refine ⟨storeBit s.f s.cnt b, ?_, toNat_cnt_add_one hcnt, fun i hi => storeBit_getLsbD s.f s.cnt b i hi⟩
  rw [h.exec_edge, State.handleEdge_of_bit h.decEn h.lvl_ne hcnt hwindow]
  rfl

/-- Settles O39: up to 1500 ms a HIGH edge is no marker. -/
theorem highEdgeWithoutMarker : Obligations.HighEdgeWithoutMarker := by
  unfold Obligations.HighEdgeWithoutMarker
  intro s h hshort
  have hsymbol : classify .high s.interval ≠ .marker := by
    rw [ne_eq, classify_high_eq_marker_iff, s.interval_toNat]
    omega
  rw [h.exec_edge, State.handleEdge_of_no_marker h.decEn h.lvl_ne hsymbol, State.recordEdge]

/-- A plausible value fits the fields it is written to (R233, R234). -/
theorem syncVal_toNat {d : Decoded} (hplausible : plausible d = true) (hday : d.day ≤ 45) :
    (syncVal d).year.toNat = 2000 + d.year2 ∧ (syncVal d).month.toNat = d.month ∧ (syncVal d).day.toNat = d.day ∧
      (syncVal d).hour.toNat = d.hour ∧ (syncVal d).minute.toNat = d.minute ∧ (syncVal d).second.toNat = 0 ∧
      (syncVal d).millisecond.toNat = 0 := by
  obtain ⟨hminute, hhour, hmonth, hyear⟩ := plausible_iff.mp hplausible
  simp only [syncVal, BitVec.toNat_ofNat, yearOffset, BitVec.ofNat_eq_ofNat, Nat.zero_mod, and_true]
  omega

/-- Settles O40: the marker's two cases are those of `frameAccepted`. -/
theorem markerHandsOffOrDiscards : Obligations.MarkerHandsOffOrDiscards := by
  unfold Obligations.MarkerHandsOffOrDiscards
  intro s h hlong
  rw [← s.interval_toNat, ← classify_high_eq_marker_iff] at hlong
  rw [h.exec_edge]
  constructor
  · intro hcnt hvalid hminute hhour hmonth hyear
    have hplausible : plausible (frameDecode s.f) = true := plausible_iff.mpr ⟨hminute, hhour, hmonth, hyear⟩
    refine ⟨syncVal (frameDecode s.f), ?_, syncVal_toNat hplausible (frameDecode_day_le s.f)⟩
    rw [State.handleEdge_of_accepted h.decEn h.lvl_ne hlong (frameAccepted_iff.mpr ⟨hcnt, hvalid, hplausible⟩)]
    rfl
  · intro hfails
    have hdiscarded : frameAccepted s.cnt s.f = false := by
      rw [Bool.eq_false_iff, ne_eq, frameAccepted_iff, plausible_iff]
      rintro ⟨hcnt, hvalid, hminute, hhour, hmonth, hyear⟩
      rw [frameBits] at hcnt
      simp only [hvalid, Bool.true_eq_false, false_or] at hfails
      omega
    rw [State.handleEdge_of_discarded h.decEn h.lvl_ne hlong hdiscarded]
    rfl

/-! ### What a frame says (R220, R230, R232) -/

theorem onesIn_zero (f : Frame) (lo : Nat) : onesIn f lo 0 = 0 := rfl

theorem onesIn_succ (f : Frame) (lo n : Nat) : onesIn f lo (n + 1) = bitAt f lo + onesIn f (lo + 1) n := by
  cases hbit : f.getLsbD lo <;> simp [onesIn, bitAt, List.range'_succ, hbit, Nat.add_comm]

/-- The exclusive or of a range is 0 exactly where the number of its 1 bits is even. -/
theorem frameParity_eq_false_iff (f : Frame) (lo n : Nat) : frameParity f lo n = false ↔ onesIn f lo n % 2 = 0 := by
  induction n generalizing lo with
  | zero => simp [frameParity, onesIn_zero]
  | succ n ih =>
    have hrest := ih (lo + 1)
    rw [frameParity, onesIn_succ, bitAt]
    cases f.getLsbD lo <;> cases hparity : frameParity f (lo + 1) n <;> simp [hparity] at hrest ⊢ <;> omega

theorem frameValid_iff {f : Frame} :
    frameValid f = true ↔
      f.getLsbD 0 = false ∧ f.getLsbD 17 ≠ f.getLsbD 18 ∧ f.getLsbD 20 = true ∧
      frameParity f 21 8 = false ∧ frameParity f 29 7 = false ∧ frameParity f 36 23 = false := by
  simp [frameValid, and_assoc]

/-- Settles O41, each parity check counted as 1 bits. -/
theorem validFrameIsSixChecks : Obligations.ValidFrameIsSixChecks := by
  unfold Obligations.ValidFrameIsSixChecks
  intro f
  rw [frameValid_iff, frameParity_eq_false_iff, frameParity_eq_false_iff, frameParity_eq_false_iff]

/-- A flipped bit changes the parity of the ranges that hold its position, and of no other. -/
theorem frameParity_flip (f : Frame) {i : Nat} (hi : i < 59) (lo n : Nat) :
    frameParity (f ^^^ BitVec.twoPow 59 i) lo n = (frameParity f lo n ^^ decide (lo ≤ i ∧ i < lo + n)) := by
  induction n generalizing lo with
  | zero =>
    have hempty : ¬ (lo ≤ i ∧ i < lo + 0) := by omega
    simp only [frameParity, hempty, decide_false, Bool.xor_false]
  | succ n ih =>
    have hbit : (f ^^^ BitVec.twoPow 59 i).getLsbD lo = (f.getLsbD lo ^^ decide (i = lo)) := by
      simp [hi]
    have hrange : decide (lo ≤ i ∧ i < lo + (n + 1)) = (decide (i = lo) ^^ decide (lo + 1 ≤ i ∧ i < lo + 1 + n)) := by
      by_cases hfirst : i = lo
      · simp [hfirst]
      · simp only [hfirst, decide_false, Bool.false_xor, decide_eq_decide]
        omega
    simp only [frameParity, hbit, ih, hrange, Bool.xor_assoc, Bool.xor_left_comm]

theorem frameParity_flip_ne_false {f : Frame} {i lo n : Nat} (hparity : frameParity f lo n = false) (hi : i < 59)
    (hfirst : lo ≤ i) (hlast : i < lo + n) : frameParity (f ^^^ BitVec.twoPow 59 i) lo n ≠ false := by
  simp [frameParity_flip f hi, hparity, hfirst, hlast]

/-- Settles O42: the three parity ranges cover the positions 21 to 58. -/
theorem oneFlippedBitInvalidates : Obligations.OneFlippedBitInvalidates := by
  unfold Obligations.OneFlippedBitInvalidates
  intro f i hvalid hfirst hlast
  obtain ⟨-, -, -, hminute, hhour, hdate⟩ := frameValid_iff.mp hvalid
  have hi : i < 59 := by omega
  rw [Bool.eq_false_iff, ne_eq, frameValid_iff]
  rintro ⟨-, -, -, hminute', hhour', hdate'⟩
  have hranges : (21 ≤ i ∧ i < 21 + 8) ∨ (29 ≤ i ∧ i < 29 + 7) ∨ (36 ≤ i ∧ i < 36 + 23) := by omega
  rcases hranges with ⟨hlo, hhi⟩ | ⟨hlo, hhi⟩ | ⟨hlo, hhi⟩
  · exact frameParity_flip_ne_false hminute hi hlo hhi hminute'
  · exact frameParity_flip_ne_false hhour hi hlo hhi hhour'
  · exact frameParity_flip_ne_false hdate hi hlo hhi hdate'

theorem frameSum_nil (f : Frame) (lo : Nat) : frameSum f lo [] = 0 := rfl

theorem frameSum_cons (f : Frame) (lo w : Nat) (ws : List Nat) :
    frameSum f lo (w :: ws) = w * bitAt f lo + frameSum f (lo + 1) ws := by
  simp [frameSum, bitAt]

/-- Settles O43: the five numbers are sums over the weights of R230, position by position. -/
theorem decodedNumbers : Obligations.DecodedNumbers := by
  unfold Obligations.DecodedNumbers
  intro f
  simp only [frameDecode, frameSum_cons, frameSum_nil, Nat.one_mul, Nat.add_zero, Nat.add_assoc, Nat.reduceAdd, and_self]

/-- Settles O44: no number exceeds the sum of its weights, and the frame of 59 ones reaches all five. -/
theorem decodedRanges : Obligations.DecodedRanges := by
  unfold Obligations.DecodedRanges
  refine ⟨fun f => ⟨frameSum_le_sum f 21 _, frameSum_le_sum f 29 _, frameDecode_day_le f, frameSum_le_sum f 45 _,
    frameSum_le_sum f 50 _⟩, BitVec.allOnes 59, ?_⟩
  decide

/-- Settles O45, by evaluation. -/
theorem canonicalFrameAccepted : Obligations.CanonicalFrameAccepted := by
  unfold Obligations.CanonicalFrameAccepted
  decide

/-! ### What the decoder reads of the engine (R236) -/

/-- The counter, the decoder's registers, `PEND` and the waiting edges of a state; all else as after reset. -/
def State.decoderPart (s : State) : State :=
  { State.reset with
    msc := s.msc
    decEn := s.decEn
    lvl := s.lvl
    lem := s.lem
    cnt := s.cnt
    f := s.f
    pend := s.pend
    waiting := s.waiting }

theorem State.decoderPart_eq_iff {s u : State} :
    u.decoderPart = s.decoderPart ↔ u.msc = s.msc ∧ sameDecoder s u ∧ u.pend = s.pend ∧ u.waiting = s.waiting := by
  simp [State.decoderPart, sameDecoder, and_assoc]

/-- Each case of an EDGE step is decided by registers of the decoder's part and changes no others. -/
theorem State.decoderPart_handleEdge (s : State) (l : Level) : (s.handleEdge l).decoderPart = s.decoderPart.handleEdge l := by
  rcases s.handleEdge_cases l with ⟨hmasked | hlvl, heq⟩ | ⟨henabled, hlvl, rfl, hsymbol, heq⟩ |
    ⟨henabled, hlvl, rfl, hsymbol, haccepted, heq⟩ | ⟨henabled, hlvl, rfl, hsymbol, hdiscarded, heq⟩ |
    ⟨henabled, hlvl, rfl, hno, heq⟩ | ⟨henabled, hlvl, rfl, hcnt, b, hbit, heq⟩ <;> rw [heq]
  · exact (State.handleEdge_of_masked (s := s.decoderPart) hmasked l).symm
  · exact (State.handleEdge_of_debounced (s := s.decoderPart) hlvl).symm
  · exact (State.handleEdge_of_no_marker (s := s.decoderPart) henabled hlvl hsymbol).symm
  · exact (State.handleEdge_of_accepted (s := s.decoderPart) henabled hlvl hsymbol haccepted).symm
  · exact (State.handleEdge_of_discarded (s := s.decoderPart) henabled hlvl hsymbol hdiscarded).symm
  · exact (State.handleEdge_of_no_bit (s := s.decoderPart) henabled hlvl hno).symm
  · exact (State.handleEdge_of_bit (s := s.decoderPart) henabled hlvl hcnt hbit).symm

theorem exec_edge_decoderPart {s t : State} {l : Level} (hexec : exec (.edge l) s = .next t) :
    exec (.edge l) s.decoderPart = .next t.decoderPart := by
  by_cases henabled : s.edgeEnabled = true
  · rw [exec_edge_of_enabled henabled, Host.Outcome.next.injEq] at hexec
    rw [exec_edge_of_enabled (s := s.decoderPart) henabled, ← s.decoderPart_handleEdge l, hexec]
  · have hdisabled : s.edgeEnabled = false := Bool.eq_false_iff.mpr henabled
    rw [exec_edge_of_not_enabled hdisabled, Host.Outcome.next.injEq] at hexec
    rw [exec_edge_of_not_enabled (s := s.decoderPart) hdisabled, ← hexec]
    rfl

theorem exec_edge_engine_trace {s t : State} {l : Level} (hexec : exec (.edge l) s = .next t) :
    sameEngine s t ∧ t.trace = s.trace := by
  by_cases henabled : s.edgeEnabled = true
  · rw [exec_edge_of_enabled henabled, Host.Outcome.next.injEq] at hexec
    exact hexec ▸ s.handleEdge_engine_trace l
  · rw [exec_edge_of_not_enabled (Bool.eq_false_iff.mpr henabled), Host.Outcome.next.injEq] at hexec
    simp [← hexec, sameEngine]

/-- Settles O46: EDGE commutes with restriction to the decoder's part, so states with the same part end with the same part. -/
theorem edgeIsolatedFromEngine : Obligations.EdgeIsolatedFromEngine := by
  unfold Obligations.EdgeIsolatedFromEngine
  refine ⟨fun s t l => exec_edge_engine_trace, ?_⟩
  intro s u s' u' l hmsc hdecoder hpend hwaiting hs hu
  have hpart : u.decoderPart = s.decoderPart := State.decoderPart_eq_iff.mpr ⟨hmsc, hdecoder, hpend, hwaiting⟩
  have hs' := exec_edge_decoderPart hs
  have hu' := exec_edge_decoderPart hu
  rw [hpart, hs', Host.Outcome.next.injEq, eq_comm] at hu'
  obtain ⟨-, hsame⟩ := State.decoderPart_eq_iff.mp hu'
  exact hsame

/-! ### The test signal (R240, 30_encoding R114) -/

theorem runOps_append_eq_next {ops later : List Instr} {s u t : State} (hrun : runOps ops s = .next u)
    (hlater : runOps later u = .next t) : runOps (ops ++ later) s = .next t :=
  (runOps_append_of_next hrun).trans hlater

theorem runOps_ticksOps (n : Nat) (s : State) : runOps (ticksOps n) s = .next (ticksFrom n s) := by
  induction n generalizing s with
  | zero => rfl
  | succ n ih => exact runOps_cons_eq_next_iff.mpr ⟨s.tick, exec_tick_eq s, ih s.tick⟩

/-- What a TICK keeps, any number of them keep. -/
theorem ticksFrom_keeps {α : Type} {register : State → α} (htick : ∀ s : State, register s.tick = register s) (n : Nat)
    (s : State) : register (ticksFrom n s) = register s := by
  induction n generalizing s with
  | zero => rfl
  | succ n ih => exact (ih s.tick).trans (htick s)

/-- The decoder in the middle of the signal of frame `f`: the last edge was to level `l`, now, `elapsed` TICKs after the counter
stood at `start`, and the first `n` bits of `f` have been received. -/
structure State.Receiving (f : Frame) (start : Counter) (l : Level) (n elapsed : Nat) (s : State) : Prop where
  decEn : s.decEn = true
  lvl : s.lvl = l
  msc : s.msc = start + BitVec.ofNat 16 elapsed
  lem : s.lem = s.msc
  cnt : s.cnt.toNat = n
  frame : ∀ i < 59, s.f.getLsbD i = (decide (i < n) && f.getLsbD i)
  pend : s.pend = none
  waiting : s.waiting = []

section Receiving

variable {f : Frame} {start : Counter} {l : Level} {n elapsed : Nat} {s : State} (h : s.Receiving f start l n elapsed)
include h

/-- `k` milliseconds of a constant level end at an edge that is taken at once. -/
theorem State.Receiving.runOps_edge (k : Nat) (l' : Level) :
    runOps (ticksOps k ++ [.edge l']) s = .next ((ticksFrom k s).handleEdge l') := by
  have hpend : (ticksFrom k s).pend = none := (ticksFrom_keeps State.tick_pend k s).trans h.pend
  have hwaiting : (ticksFrom k s).waiting = [] := (ticksFrom_keeps State.tick_waiting k s).trans h.waiting
  exact runOps_append_eq_next (runOps_ticksOps k s)
    (runOps_cons_eq_next_iff.mpr ⟨_, exec_edge_of_none_waiting hpend hwaiting l', rfl⟩)

/-- The interval that edge measures is the time since the edge before it (R204). -/
theorem State.Receiving.interval_ticksFrom {k : Nat} (hk : k < 65536) : (ticksFrom k s).interval.toNat = k := by
  rw [State.interval, ticksFrom_msc, ticksFrom_keeps State.tick_lem, h.lem]
  bv_omega

theorem State.Receiving.msc_ticksFrom (k : Nat) : (ticksFrom k s).msc = start + BitVec.ofNat 16 (elapsed + k) := by
  rw [ticksFrom_msc, h.msc, BitVec.add_assoc, ← BitVec.ofNat_add]

theorem State.Receiving.decEn_ticksFrom (k : Nat) : (ticksFrom k s).decEn = true :=
  (ticksFrom_keeps State.tick_decEn k s).trans h.decEn

theorem State.Receiving.lvl_ticksFrom (k : Nat) : (ticksFrom k s).lvl = l :=
  (ticksFrom_keeps State.tick_lvl k s).trans h.lvl

end Receiving

section Receiving

variable {f : Frame} {start : Counter} {n elapsed : Nat} {s : State}

/-- An edge that is handled without a bit and without a marker leaves what has been received. -/
theorem State.Receiving.recordEdge_ticksFrom {l : Level} (h : s.Receiving f start l n elapsed) (k : Nat) (l' : Level) :
    ((ticksFrom k s).recordEdge l').Receiving f start l' n (elapsed + k) where
  decEn := h.decEn_ticksFrom k
  lvl := rfl
  msc := h.msc_ticksFrom k
  lem := rfl
  cnt := by rw [State.recordEdge_cnt, ticksFrom_keeps State.tick_cnt, h.cnt]
  frame := by simpa only [State.recordEdge_f, ticksFrom_keeps State.tick_f] using h.frame
  pend := (ticksFrom_keeps State.tick_pend k s).trans h.pend
  waiting := (ticksFrom_keeps State.tick_waiting k s).trans h.waiting

/-- The next bit of the frame goes to the next position (R211). -/
theorem State.Receiving.appendBit {l : Level} (h : s.Receiving f start l n elapsed) (hn : n ≤ 58) :
    (s.appendBit (f.getLsbD n)).Receiving f start l (n + 1) elapsed where
  decEn := h.decEn
  lvl := h.lvl
  msc := h.msc
  lem := h.lem
  cnt := by
    have hcnt := h.cnt
    rw [State.appendBit_cnt, toNat_cnt_add_one (by omega), hcnt]
  frame := fun i hi => by
    rw [State.appendBit_f, storeBit_getLsbD _ _ _ _ hi, h.cnt, h.frame i hi]
    by_cases hlast : i = n
    · simp [hlast]
    · have hbelow : i < n + 1 ↔ i < n := by omega
      simp only [hlast, if_false, hbelow]
  pend := h.pend
  waiting := h.waiting

theorem symbolBit_of_pulseMs {iv : BitVec 16} {b : Bool} (hiv : iv.toNat = pulseMs b) : symbolBit (classify .low iv) = some b := by
  rw [symbolBit_classify_low_eq_some_iff, hiv]
  cases b <;> decide

theorem pulseMs_le (b : Bool) : pulseMs b ≤ 200 := by
  cases b <;> decide

/-- The pulse of bit `n` and its falling edge: the bit is received (R207 to R211). -/
theorem State.Receiving.pulse (h : s.Receiving f start .high n elapsed) (hn : n ≤ 58) :
    ∃ t, runOps (ticksOps (pulseMs (f.getLsbD n)) ++ [.edge .low]) s = .next t ∧
      t.Receiving f start .low (n + 1) (elapsed + pulseMs (f.getLsbD n)) := by
  have hrun := h.runOps_edge (pulseMs (f.getLsbD n)) .low
  have hrecorded := h.recordEdge_ticksFrom (pulseMs (f.getLsbD n)) .low
  have hcnt : (ticksFrom (pulseMs (f.getLsbD n)) s).cnt.toNat ≤ cntLimit := by
    rw [ticksFrom_keeps State.tick_cnt, h.cnt, cntLimit]
    omega
  have hlvl : .low ≠ (ticksFrom (pulseMs (f.getLsbD n)) s).lvl := by simp [h.lvl_ticksFrom]
  have hiv := h.interval_ticksFrom (k := pulseMs (f.getLsbD n)) (by have := pulseMs_le (f.getLsbD n); omega)
  rw [State.handleEdge_of_bit (h.decEn_ticksFrom _) hlvl hcnt (symbolBit_of_pulseMs hiv)] at hrun
  exact ⟨_, hrun, hrecorded.appendBit hn⟩

/-- The rest of a second and the rising edge that ends it: no marker (R212). -/
theorem State.Receiving.gap (h : s.Receiving f start .low n elapsed) {k : Nat} (hk : k ≤ 1500) :
    ∃ t, runOps (ticksOps k ++ [.edge .high]) s = .next t ∧ t.Receiving f start .high n (elapsed + k) := by
  have hrun := h.runOps_edge k .high
  have hlvl : .high ≠ (ticksFrom k s).lvl := by simp [h.lvl_ticksFrom]
  have hsymbol : classify .high (ticksFrom k s).interval ≠ .marker := by
    rw [ne_eq, classify_high_eq_marker_iff, h.interval_ticksFrom (by omega)]
    omega
  rw [State.handleEdge_of_no_marker (h.decEn_ticksFrom k) hlvl hsymbol] at hrun
  exact ⟨_, hrun, h.recordEdge_ticksFrom k .high⟩

theorem State.Receiving.f_of_complete {l : Level} (h : s.Receiving f start l 59 elapsed) : s.f = f := by
  refine BitVec.eq_of_getLsbD_eq fun i hi => ?_
  rw [h.frame i hi, decide_eq_true hi, Bool.true_and]

/-- The long gap after the last bit and the rising edge that ends it: the marker of a complete frame (R213). -/
theorem State.Receiving.marker (h : s.Receiving f start .low 59 elapsed) {k : Nat} (hlong : 1500 < k) (hk : k < 65536) :
    ∃ t, runOps (ticksOps k ++ [.edge .high]) s = .next t ∧ t.lvl = .high ∧ t.msc = start + BitVec.ofNat 16 (elapsed + k) ∧
      t.lem = t.msc ∧ t.cnt = 0 ∧ t.f = 0 ∧
      t.pend = (if frameValid f && plausible (frameDecode f) then some (syncVal (frameDecode f)) else none) := by
  have hrun := h.runOps_edge k .high
  have hrecorded := h.recordEdge_ticksFrom k .high
  have hlvl : .high ≠ (ticksFrom k s).lvl := by simp [h.lvl_ticksFrom]
  have hsymbol : classify .high (ticksFrom k s).interval = .marker := by
    rw [classify_high_eq_marker_iff, h.interval_ticksFrom hk]
    exact hlong
  have hf : (ticksFrom k s).f = f := hrecorded.f_of_complete
  have hverdict : frameAccepted (ticksFrom k s).cnt (ticksFrom k s).f = (frameValid f && plausible (frameDecode f)) := by
    have hcnt : (ticksFrom k s).cnt.toNat = frameBits := hrecorded.cnt
    rw [frameAccepted, hcnt, hf, decide_eq_true rfl, Bool.true_and]
  cases haccepted : frameValid f && plausible (frameDecode f)
  · rw [State.handleEdge_of_discarded (h.decEn_ticksFrom k) hlvl hsymbol (hverdict.trans haccepted)] at hrun
    exact ⟨_, hrun, rfl, hrecorded.msc, rfl, rfl, rfl, hrecorded.pend⟩
  · rw [State.handleEdge_of_accepted (h.decEn_ticksFrom k) hlvl hsymbol (hverdict.trans haccepted), hf] at hrun
    exact ⟨_, hrun, rfl, hrecorded.msc, rfl, rfl, rfl, rfl⟩

theorem secondOps_eq (b : Bool) :
    secondOps b = (ticksOps (pulseMs b) ++ [.edge .low]) ++ (ticksOps (1000 - pulseMs b) ++ [.edge .high]) := by
  simp [secondOps]

theorem lastSecondOps_eq (b : Bool) :
    lastSecondOps b = (ticksOps (pulseMs b) ++ [.edge .low]) ++ (ticksOps (2000 - pulseMs b) ++ [.edge .high]) := by
  simp [lastSecondOps]

theorem State.Receiving.second (h : s.Receiving f start .high n elapsed) (hn : n ≤ 58) :
    ∃ t, runOps (secondOps (f.getLsbD n)) s = .next t ∧ t.Receiving f start .high (n + 1) (elapsed + 1000) := by
  have hpulse := pulseMs_le (f.getLsbD n)
  obtain ⟨u, hrunPulse, hu⟩ := h.pulse hn
  obtain ⟨t, hrunGap, ht⟩ := hu.gap (k := 1000 - pulseMs (f.getLsbD n)) (by omega)
  have htotal : elapsed + pulseMs (f.getLsbD n) + (1000 - pulseMs (f.getLsbD n)) = elapsed + 1000 := by omega
  exact ⟨t, secondOps_eq _ ▸ runOps_append_eq_next hrunPulse hrunGap, htotal ▸ ht⟩

/-- The first `n` seconds of the signal bring its first `n` bits, one each. -/
theorem State.Receiving.seconds (h : s.Receiving f start .high 0 0) (hn : n ≤ 58) :
    ∃ t, runOps ((List.range n).flatMap fun i => secondOps (f.getLsbD i)) s = .next t ∧
      t.Receiving f start .high n (n * 1000) := by
  induction n with
  | zero => exact ⟨s, rfl, h⟩
  | succ n ih =>
    obtain ⟨u, hrun, hu⟩ := ih (by omega)
    obtain ⟨t, hsecond, ht⟩ := hu.second (by omega)
    rw [List.range_succ, List.flatMap_append, List.flatMap_singleton, Nat.succ_mul]
    exact ⟨t, runOps_append_eq_next hrun hsecond, ht⟩

end Receiving

/-- Just after a marker nothing has been received yet. -/
theorem State.receiving_of_cleared {s : State} (f : Frame) (henabled : s.decEn = true) (hlvl : s.lvl = .high)
    (hlem : s.lem = s.msc) (hcnt : s.cnt = 0) (hf : s.f = 0) (hpend : s.pend = none) (hwaiting : s.waiting = []) :
    s.Receiving f s.msc .high 0 0 where
  decEn := henabled
  lvl := hlvl
  msc := by simp
  lem := hlem
  cnt := by simp [hcnt]
  frame := by simp [hf]
  pend := hpend
  waiting := hwaiting

/-- Settles O47: 58 seconds, the last pulse, and the marker. -/
theorem testSignalReceived : Obligations.TestSignalReceived := by
  unfold Obligations.TestSignalReceived
  intro s f henabled hlvl hlem hcnt hf hpend hwaiting
  have hstart := State.receiving_of_cleared f henabled hlvl hlem hcnt hf hpend hwaiting
  have hpulse := pulseMs_le (f.getLsbD 58)
  obtain ⟨u, hrunSeconds, hu⟩ := hstart.seconds (n := 58) le_rfl
  obtain ⟨v, hrunPulse, hv⟩ := hu.pulse le_rfl
  obtain ⟨t, hrunMarker, hnewLvl, hmsc, hrest⟩ := hv.marker (k := 2000 - pulseMs (f.getLsbD 58)) (by omega) (by omega)
  have htotal : 58 * 1000 + pulseMs (f.getLsbD 58) + (2000 - pulseMs (f.getLsbD 58)) = 60000 := by omega
  rw [htotal] at hmsc
  refine ⟨t, ?_, hnewLvl, hmsc, hrest⟩
  rw [frameOps, lastSecondOps_eq]
  exact runOps_append_eq_next hrunSeconds (runOps_append_eq_next hrunPulse hrunMarker)

end Sys2Proof.Machine

/-! The enable control of 43_control: what DECEN and DECDIS write (R260, R262), and that no operation but EDGE reads what they
write (R264). -/

namespace Sys2Proof.Machine

/-! ### An operation that neither reads nor writes the enable bit (R264) -/

theorem State.tick_setDecEn (s : State) (b : Bool) : (s.setDecEn b).tick = s.tick.setDecEn b := by
  simp only [State.tick_eq, State.setDecEn]

theorem State.applyHandoff_setDecEn (s : State) (w : Wallclock) (b : Bool) :
    (s.setDecEn b).applyHandoff w = (s.applyHandoff w).setDecEn b := rfl

theorem exec_handoff_eq_next_iff {x : Packed} {s t : State} :
    exec (.handoff x) s = .next t ↔ ∃ w, s.pend = some w ∧ s.applyHandoff w = t := by
  cases hpend : s.pend with
  | none => simp [exec_handoff_of_not_pend hpend]
  | some w => simp [exec_handoff_of_pend hpend]

/-- Settles O50: TICK and HANDOFF by their effect, which commutes with a write of the enable bit; a read by its one equation. -/
theorem enableAffectsOnlyEdge : Obligations.EnableAffectsOnlyEdge := by
  unfold Obligations.EnableAffectsOnlyEdge
  rintro i s t b (hi | ⟨x, rfl⟩) hexec
  · rcases List.mem_cons.mp hi with rfl | hread
    · obtain rfl := eq_of_exec_tick hexec
      exact ⟨congrArg _ (s.tick_setDecEn b), s.tick_decEn⟩
    · rw [exec_eq_of_read hread, Host.Outcome.next.injEq] at hexec
      rw [exec_eq_of_read hread, ← hexec]
      exact ⟨rfl, rfl⟩
  · obtain ⟨w, hpend, rfl⟩ := exec_handoff_eq_next_iff.mp hexec
    exact ⟨exec_handoff_eq_next_iff.mpr ⟨w, hpend, s.applyHandoff_setDecEn w b⟩, s.applyHandoff_decEn w⟩

/-! ### DECEN and DECDIS (R260, R262) -/

theorem State.setDecEn_of_decEn_eq {s : State} {b : Bool} (h : s.decEn = b) : s.setDecEn b = s := by
  rw [← h, State.setDecEn]

/-- Settles O48: DECEN and its strobe are the write of the enable bit, which changes nothing where the bit holds that value. -/
theorem decenEnablesDecoder : Obligations.DecenEnablesDecoder := by
  unfold Obligations.DecenEnablesDecoder
  refine ⟨fun _ => rfl, fun a => by simp [mayIssue], exec_decen_eq, fun s henabled => ?_, strobes_eq true false⟩
  rw [exec_decen_eq, State.setDecEn_of_decEn_eq henabled]

/-- Settles O49: DECDIS leaves `PEND`, so the HANDOFF after it applies the value that was pending before it. -/
theorem decdisMasksDecoder : Obligations.DecdisMasksDecoder := by
  unfold Obligations.DecdisMasksDecoder
  refine ⟨fun _ => rfl, fun a => by simp [mayIssue], exec_decdis_eq, fun s hmasked => ?_, fun s w hpend => ?_,
    strobes_eq false true⟩
  · rw [exec_decdis_eq, State.setDecEn_of_decEn_eq hmasked]
  · have hkept : (s.setDecEn false).pend = some w := (s.setDecEn_pend false).trans hpend
    exact ⟨(s.setDecEn false).applyHandoff w, runOps_pair (exec_decdis_eq s) (exec_handoff_of_pend hkept (pack w)),
      State.applyHandoff_wc _ w, by simp⟩

end Sys2Proof.Machine

/-! The errors of 60_exceptions: no step faults (R300), and each reason why a step is refused comes from the item it read (R302, with
30_encoding R107, R112). -/

namespace Sys2Proof

/-! ### The reserved word that decoding reports (30_encoding R105) -/

theorem eq_of_decodeOpc_reserved {word op : Byte} {later : List Byte} (h : decodeOpc word later = .error (.reservedWord op)) :
    word = op := by
  unfold decodeOpc at h
  split at h
  case h_5 => exact absurd h (decodeOperand_ne_reserved later)
  case h_9 => cases h; rfl
  all_goals cases h

/-- Whichever test reports a reserved word reports the first byte. -/
theorem bytes_of_decode_reserved {bytes : List Byte} {op : Byte} (h : decode bytes = .error (.reservedWord op)) :
    ∃ rest, bytes = op :: rest := by
  cases bytes with
  | nil => cases h
  | cons word later =>
    suffices heq : word = op from ⟨later, heq ▸ rfl⟩
    by_cases hrsv : rsvOf word = 0
    case neg => cases (decode_of_rsvOf_ne_zero later hrsv).symm.trans h; rfl
    by_cases hopc : opcOf word = 1
    case pos => cases (decode_of_opcOf_eq_one later hrsv hopc).symm.trans h
    cases hlevel : levelBitOf word with
    | true => cases (decode_of_levelBitOf_true later hrsv hopc hlevel).symm.trans h; rfl
    | false => exact eq_of_decodeOpc_reserved ((decode_eq_decodeOpc later hrsv hopc hlevel).symm.trans h)

end Sys2Proof

namespace Sys2Proof.Machine

/-! ### Everything a refused step can be (R302) -/

/-- Of the operations' meanings only HANDOFF's refuses, and only with nothing pending. -/
theorem exec_eq_refused_iff {i : Instr} {s : State} {r : Refusal} :
    exec i s = .refused r ↔ (∃ x, i = .handoff x) ∧ s.pend = none ∧ r = .handoffWithoutPending := by
  refine ⟨fun h => ?_, fun ⟨⟨x, hi⟩, hpend, hr⟩ => hi ▸ hr ▸ exec_handoff_of_not_pend hpend x⟩
  cases i with
  | handoff x =>
    cases hpend : s.pend with
    | none =>
      cases (exec_handoff_of_not_pend hpend x).symm.trans h
      exact ⟨⟨x, rfl⟩, rfl, rfl⟩
    | some w => cases (exec_handoff_of_pend hpend x).symm.trans h
  | edge l =>
    cases henabled : s.edgeEnabled with
    | true => cases (exec_edge_of_enabled henabled l).symm.trans h
    | false => cases (exec_edge_of_not_enabled henabled l).symm.trans h
  | tick | getms | snap | syncq | decen | decdis | reset => cases h

/-- A step without an item is never refused; with one, reading the item refuses it or its operation's meaning does. -/
theorem step_refused_cases {s : State} {r : Refusal} (h : step s = .refused r) :
    ∃ q t, s.nextTurn = .presented q t ∧ (readItem q = .error r ∨ ∃ i, readItem q = .ok i ∧ exec i t = .refused r) := by
  cases hturn : s.nextTurn with
  | idle => simp [step, hturn] at h
  | waitingEdge l t => simp [step, hturn] at h
  | presented q t =>
    refine ⟨q, t, rfl, ?_⟩
    cases hread : readItem q with
    | error r' =>
      cases (step_of_unreadable hturn hread).symm.trans h
      exact .inl rfl
    | ok i => exact .inr ⟨i, rfl, (step_of_presented hturn hread).symm.trans h⟩

theorem bytes_eq_encode_of_decode {q : Item} {i : Instr} (hdecode : decode q.bytes = .ok (i, [])) : q.bytes = encode i :=
  (encode_of_decode hdecode).trans (List.append_nil _)

/-- Settles O10: there is no reason to fault with; an item is refused by reading it for one of three reasons, and one that is read is
refused by HANDOFF's meaning alone. -/
theorem stepStopsOnlyAtRefusals : Obligations.StepStopsOnlyAtRefusals := by
  unfold Obligations.StepStopsOnlyAtRefusals
  refine fun s => ⟨(nomatch ·), fun r hstep => ?_⟩
  obtain ⟨q, t, hturn, hread | ⟨i, hread, hexec⟩⟩ := step_refused_cases hstep
  · refine ⟨q, t, hturn, ?_⟩
    rcases readItem_error_cases hread with ⟨op, hdecode, hr⟩ | ⟨hdecode, hr⟩ | ⟨i, hdecode, hforeign, hr⟩
    · obtain ⟨rest, hbytes⟩ := bytes_of_decode_reserved hdecode
      exact .inl ⟨op, rest, hbytes, hdecode, hr⟩
    · refine .inr (.inl ⟨fun j hbytes => ?_, hr⟩)
      simp [decode_bytes_of_eq_encode hbytes] at hdecode
    · exact .inr (.inr (.inl ⟨i, bytes_eq_encode_of_decode hdecode, hforeign, hr⟩))
  · obtain ⟨⟨x, rfl⟩, hpend, hr⟩ := exec_eq_refused_iff.mp hexec
    obtain ⟨hdecode, -⟩ := readItem_ok_iff.mp hread
    exact ⟨q, t, hturn, .inr (.inr (.inr ⟨x, bytes_eq_encode_of_decode hdecode, hpend, hr⟩))⟩

end Sys2Proof.Machine

/-! RESET and the hazards of 70_reset_and_hazards: what RESET writes and what it leaves (R340), and the latency between the EDGE that
sets `PEND` and its HANDOFF (R346). -/

namespace Sys2Proof.Machine

/-! ### A pending handoff (R346, 20_memory R73, R74) -/

/-- While `PEND` is set an EDGE only joins the waiting ones, so nothing but the enable control reaches the decoder. -/
theorem exec_sameDecoder_of_pend {i : Instr} {s t : State} {w : Wallclock} (hpend : s.pend = some w) (hkeep : keepsTime i = true)
    (hexec : exec i s = .next t) : sameDecoder { s with decEn := t.decEn } t := by
  obtain ⟨hhandoff, hreset⟩ := keepsTime_iff.mp hkeep
  rcases exec_next_cases hexec with ⟨-, rfl⟩ | ⟨l, -, htaken, -⟩ | ⟨l, -, -, rfl⟩ | ⟨-, e, -, rfl⟩ | ⟨x, v, hi, -⟩ |
    ⟨b, -, rfl⟩ | ⟨hi, -⟩
  case inr.inl => simp [State.edgeEnabled_of_pend (hpend ▸ Option.some_ne_none w)] at htaken
  case inr.inr.inr.inr.inl => exact absurd hi (hhandoff x)
  case inr.inr.inr.inr.inr.inr => exact absurd hi hreset
  all_goals simp [sameDecoder]

theorem sameDecoder_but_decEn_trans {s u t : State} (hfirst : sameDecoder { s with decEn := u.decEn } u)
    (hsecond : sameDecoder { u with decEn := t.decEn } t) : sameDecoder { s with decEn := t.decEn } t := by
  obtain ⟨-, hlvl, hlem, hcnt, hf⟩ := hfirst
  obtain ⟨-, hlvl', hlem', hcnt', hf'⟩ := hsecond
  exact ⟨rfl, hlvl'.trans hlvl, hlem'.trans hlem, hcnt'.trans hcnt, hf'.trans hf⟩

/-- Where a state stands `n` TICKs after `start`, the value `w` having been pending all along. -/
structure State.PendingSince (start : State) (w : Wallclock) (n : Nat) (s : State) : Prop where
  pend : s.pend = some w
  msc : s.msc = start.msc + BitVec.ofNat 16 n
  decoder : sameDecoder { start with decEn := s.decEn } s

theorem State.pendingSince_self {s : State} {w : Wallclock} (hpend : s.pend = some w) : s.PendingSince w 0 s :=
  ⟨hpend, (BitVec.add_zero s.msc).symm, rfl, rfl, rfl, rfl, rfl⟩

theorem State.PendingSince.tick {start s : State} {w : Wallclock} {n : Nat} (h : start.PendingSince w n s) :
    start.PendingSince w (n + 1) s.tick where
  pend := s.tick_pend.trans h.pend
  msc := by rw [State.tick_msc, h.msc, BitVec.add_assoc, BitVec.ofNat_add, BitVec.ofNat_eq_ofNat]
  decoder := sameDecoder_but_decEn_trans h.decoder (exec_sameDecoder_of_pend h.pend rfl (exec_tick_eq s))

theorem State.PendingSince.exec_of_not_tick {start s t : State} {w : Wallclock} {n : Nat} {i : Instr} (htick : i ≠ .tick)
    (hkeep : keepsTime i = true) (hexec : exec i s = .next t) (h : start.PendingSince w n s) : start.PendingSince w n t := by
  obtain ⟨-, hreset⟩ := keepsTime_iff.mp hkeep
  exact ⟨exec_pend_of_keepsTime h.pend hkeep hexec, (exec_msc_of_not_writer htick hreset hexec).trans h.msc,
    sameDecoder_but_decEn_trans h.decoder (exec_sameDecoder_of_pend h.pend hkeep hexec)⟩

/-- Settles O32: where the run stands, counted in TICKs; HANDOFF then writes what is still pending and leaves the counter. -/
theorem handoffLatency : Obligations.HandoffLatency := by
  unfold Obligations.HandoffLatency
  intro s t w ops hpend hkeep hrun
  have hend := runOps_counts_ticks (P := s.PendingSince w) (fun _ _ => State.PendingSince.tick)
    (fun _ _ _ _ => State.PendingSince.exec_of_not_tick) hkeep hrun (State.pendingSince_self hpend)
  rw [Nat.zero_add] at hend
  exact ⟨hend.pend, hend.msc, hend.decoder, t.applyHandoff w, exec_handoff_of_pend hend.pend (pack w), t.applyHandoff_wc w,
    t.applyHandoff_msc w⟩

/-! ### RESET (R340) -/

/-- Settles O51: RESET's word by decoding, its agent by the rights, its effect by RESET's equation, register by register. -/
theorem resetPutsEveryRegister : Obligations.ResetPutsEveryRegister := by
  unfold Obligations.ResetPutsEveryRegister
  exact ⟨fun _ => rfl, fun a => by simp [mayIssue], fun s => ⟨s.resetRegisters, exec_reset_eq s, s.resetRegisters_wc,
    s.resetRegisters_msc, s.resetRegisters_synced, s.resetRegisters_lsm, s.resetRegisters_decEn, s.resetRegisters_lvl,
    s.resetRegisters_lem, s.resetRegisters_cnt, s.resetRegisters_f, s.resetRegisters_pend, s.resetRegisters_trace⟩⟩

theorem State.resetRegisters_sameEnvironment (s : State) : sameEnvironment s s.resetRegisters :=
  ⟨s.resetRegisters_input, s.resetRegisters_waiting, s.resetRegisters_turns, s.resetRegisters_issuer⟩

/-- Settles O52: the one state RESET answers has the same environment. -/
theorem resetKeepsEnvironment : Obligations.ResetKeepsEnvironment := by
  unfold Obligations.ResetKeepsEnvironment
  intro s t hexec
  rw [exec_reset_eq, Host.Outcome.next.injEq] at hexec
  exact hexec ▸ s.resetRegisters_sameEnvironment

end Sys2Proof.Machine
